-- ==== Sys2Proof/Word.lean ====
section
/-! DEFINITION. The words of the IAB and the plainest arithmetic on them (00_scope.md R11, R12). -/

namespace Sys2Proof

/-- An 8-bit value: a bus byte, a report byte, a diagnostic byte. -/
abbrev Byte := BitVec 8

/-- A time or an interval in microseconds, modulo 2^32 (10_state.md R103). -/
abbrev Time := BitVec 32

/-- A 7-bit sensor register address (00_scope.md R9). -/
abbrev Addr := BitVec 7

/-- A logic level or a single bit of state: `true` is 1. -/
abbrev Level := Bool

/-- `clamp(x, lo, hi)` is `min(max(x, lo), hi)` (00_scope.md R12). -/
def clamp (x lo hi : Int) : Int := min (max x lo) hi

/-- `wrap_32(later - earlier)`: the interval between two times, correct below 2^32 (60_exceptions.md R870). -/
def elapsedSince (later earlier : Time) : Nat := (later - earlier).toNat

end Sys2Proof
end

