-- ==== Sys2Proof/Syntax.lean ====
section
/-! DEFINITION. The names of the IAB, the records its operations pass, and its instructions: one constructor of
`Instr` for each row of opcode_table.json. -/

namespace Sys2Proof

/-- The nine input pins, numbered 0..8 in this order (10_state.md R104). -/
inductive Pin where
  | lNo | lNc | rNo | rNc | m | s4 | s5 | scrA | scrB
  deriving DecidableEq, Repr

/-- The two main buttons (00_scope.md R10). -/
inductive MainButton where
  | left | right
  deriving DecidableEq, Repr

/-- The three auxiliary buttons (00_scope.md R10). -/
inductive AuxButton where
  | m | s4 | s5
  deriving DecidableEq, Repr

/-- One value for each of the nine pins. -/
structure PerPin (α : Type) where
  lNo : α
  lNc : α
  rNo : α
  rNc : α
  m : α
  s4 : α
  s5 : α
  scrA : α
  scrB : α
  deriving DecidableEq, Repr

/-- One value for each main button. -/
structure PerMain (α : Type) where
  left : α
  right : α
  deriving DecidableEq, Repr

/-- One value for each auxiliary button. -/
structure PerAux (α : Type) where
  m : α
  s4 : α
  s5 : α
  deriving DecidableEq, Repr

/-- The committed state of a button: UP is 0, DOWN is 1 (10_state.md R130, R140). -/
inductive Contact where
  | up | down
  deriving DecidableEq, Repr

/-- The handshake flag of a main button: CLEAR 0, SET 1, READ 2 (10_state.md R131). -/
inductive Handshake where
  | clear | set | read
  deriving DecidableEq, Repr

/-- The scroll direction: NONE 0, UP 1, DOWN 2 (10_state.md R151). -/
inductive ScrollDir where
  | none | up | down
  deriving DecidableEq, Repr

/-- The edge polarity that raises the scroll interrupts (00_scope.md R8). -/
inductive EdgePolarity where
  | rising | falling
  deriving DecidableEq, Repr, Inhabited

/-- The sensor operating mode, codes 0..3 in this order (10_state.md R113). -/
inductive OpMode where
  | highPerformance | lowPower | office | cordedGaming
  deriving DecidableEq, Repr, Inhabited

/-- The driver state, codes 0..6 in this order (10_state.md R111). -/
inductive DrvState where
  | unpowered | resetting | programming | verified | degraded | streaming | failed
  deriving DecidableEq, Repr

/-- The kind of the last completed bus transaction, codes 0..3 in this order (10_state.md R109, R170). -/
inductive BusKind where
  | none | write | read | burst
  deriving DecidableEq, Repr

/-- The steps of the sensor-driver sequencer (10_state.md R121). -/
inductive SeqStep where
  | idle | wake | ncsPulse | resetPulse | settle | first | verify | repair | close | diag | mvalid | stream
  | mode | fail
  deriving DecidableEq, Repr

/-- The sequencer position `SEQ_PC` (10_state.md R121). -/
structure SeqPc where
  step : SeqStep
  idx : Nat
  attempt : Nat
  deriving DecidableEq, Repr

/-- A motion sample, and the contents of a ring slot (00_scope.md R18, 10_state.md R115). -/
structure Sample where
  dx : BitVec 16
  dy : BitVec 16
  ts : Time
  deriving DecidableEq, Repr

/-- A report record, its five bytes in the order of 30_encoding.md R320. -/
structure Report where
  buttons : Byte
  dx : Byte
  dy : Byte
  wheel : Byte
  pan : Byte
  deriving DecidableEq, Repr

/-- An event with its info (60_exceptions.md R801). -/
inductive Event where
  | transportFaultInit (pc : SeqPc)
  | verifyTimeout (attempt : Nat)
  | transportFaultCapture
  | spuriousEdge (b : MainButton)
  | rbOverflow (slot : Nat)
  | auxBounce (a : AuxButton)
  deriving DecidableEq, Repr

/-- The info of an event record (60_exceptions.md R801): none, a number, or the value of `SEQ_PC`. -/
inductive EventInfo where
  | none
  | number (n : Nat)
  | position (pc : SeqPc)
  deriving DecidableEq, Repr

/-- What the sensor answers to a transaction (40_register_bus.md R427). -/
inductive Answer (α : Type) where
  | ok (value : α)
  | fault
  deriving DecidableEq, Repr

/-- One entry of the oracle queue (47_stimulus.md R764). -/
inductive ReadAnswer where
  | byte (b : Byte)
  | burst (bytes : List Byte)
  | fault
  deriving DecidableEq, Repr

/-- The three loops (46_poll_loop.md). -/
inductive Loop where
  | sensor | button | scroll
  deriving DecidableEq, Repr

/-- The scripts of the script store (20_memory.md R200). -/
inductive ScriptId where
  | first | repair | close
  | mode (m : OpMode)
  deriving DecidableEq, Repr

/-- Bits with the space they stand in: a stimulus word (30_encoding.md R340), the bytes the IAB sends in a bus
transaction (R300 to R303), or an entry of the script store (R307). The spaces share bit patterns. -/
inductive Code where
  | stim (w : BitVec 16)
  | bus (bytes : List Byte)
  | script (w : BitVec 16)
  deriving DecidableEq, Repr

/-- The instructions: every row of opcode_table.json, in the table's order. -/
inductive Instr where
  /-- `T_WRITE` (30_encoding.md R301). -/
  | tWrite (addr : Addr) (data : Byte)
  /-- `T_READ` (R302). -/
  | tRead (addr : Addr)
  /-- `T_BURST` (R303). -/
  | tBurst (addr : Addr)
  /-- `SCRIPT`: one script entry, replayed (R307, 41_sensor_driver.md R457). -/
  | script (addr : Addr) (value : Byte)
  /-- `END` (47_stimulus.md R750). -/
  | endProgram
  /-- `PIN p, l` (R751). -/
  | pin (p : Pin) (l : Level)
  /-- `ISR p` (R752). -/
  | isr (p : Pin)
  /-- `TICK n` (R753). -/
  | tick (n : BitVec 12)
  /-- `BTASK` (R754). -/
  | btask
  /-- `STASK` (R755). -/
  | stask
  /-- `SCYCLE` (R756). -/
  | scycle
  /-- `INIT` (R757). -/
  | initStim
  /-- `MODE m` (R758). -/
  | mode (m : OpMode)
  /-- `SHUT` (R759). -/
  | shut
  /-- `PUSHT dx, dy` (R760). -/
  | pusht (dx dy : BitVec 6)
  /-- `DRAINT` (R761). -/
  | draint
  /-- A word of the reserved classes 0xC to 0xF (R762); `w` is its bits [13:0]. -/
  | reserved (w : BitVec 14)
  /-- `TICKMS k`, the assembler's `k` copies of `TICK 1000` (30_encoding.md R344). -/
  | tickms (k : Nat)
  /-- `BusWrite(a, v)` (40_register_bus.md R410). -/
  | busWrite (a : Addr) (v : Byte)
  /-- `BusRead(a)` (R415). -/
  | busRead (a : Addr)
  /-- `BusBurst(a, n)` (R420). -/
  | busBurst (a : Addr) (n : Nat)
  /-- `Init` (41_sensor_driver.md R451). -/
  | initCommand
  /-- `S_WAKE` (R452). -/
  | sWake
  /-- `S_NCS_PULSE` (R453). -/
  | sNcsPulse
  /-- `S_RESET_PULSE` (R454). -/
  | sResetPulse
  /-- `S_SETTLE` (R455). -/
  | sSettle
  /-- `Replay / S_FIRST`: `Replay` of a script; for the first script, the step `S_FIRST` (R457). -/
  | replay (sc : ScriptId)
  /-- `S_VERIFY` (R456). -/
  | sVerify
  /-- `S_REPAIR` (R459). -/
  | sRepair
  /-- `S_CLOSE` (R460). -/
  | sClose
  /-- `S_DIAG` (R458). -/
  | sDiag
  /-- `S_MVALID` (R461). -/
  | sMvalid
  /-- `FatalBringupFault` (R462). -/
  | fatalBringupFault
  /-- `CaptureBurst()` (R465). -/
  | captureBurst
  /-- `ModeSwitch(m)` (R470). -/
  | modeSwitch (m : OpMode)
  /-- `Push(dx, dy, ts)` (42_ring_buffer.md R500). -/
  | push (x : Sample)
  /-- `Merge()` (R501). -/
  | merge
  /-- `Drain()` (R505). -/
  | drain
  /-- `EmitMotion(s)` (R506). -/
  | emitMotion (x : Sample)
  /-- `MainEdge(b)` (43_button_latch.md R550). -/
  | mainEdge (b : MainButton)
  /-- `LatchPoll(b)` (R555). -/
  | latchPoll (b : MainButton)
  /-- `AuxEdge(a)` (44_eager_debounce.md R600). -/
  | auxEdge (a : AuxButton)
  /-- `AuxConfirm(a)` (R605). -/
  | auxConfirm (a : AuxButton)
  /-- `AuxPoll(a)` (R610). -/
  | auxPoll (a : AuxButton)
  /-- `ScrollEdgeA()` (45_scroll_decoder.md R650). -/
  | scrollEdgeA
  /-- `ScrollEdgeB()` (R651). -/
  | scrollEdgeB
  /-- `SpeedAdjust(ev)` (R655). -/
  | speedAdjust (ev : Bool)
  /-- `ScrollPoll()` (R660). -/
  | scrollPoll
  /-- `SensorCycle`, steps 1 to 5 and the sleep boundary (46_poll_loop.md R700 to R705). -/
  | sensorCycle
  /-- `ButtonCycle` with its sleep (R710). -/
  | buttonCycle
  /-- `ButtonMask()` (R712). -/
  | buttonMask
  /-- `ScrollCycle` with its sleep (R720). -/
  | scrollCycle
  /-- `Shutdown`: the test a loop makes at its sleep boundary (R730). -/
  | shutdown (l : Loop)
  /-- `HandlerEntry` of a pin (60_exceptions.md R820). -/
  | handlerEntry (p : Pin)
  /-- `HandlerReturn` (R823). -/
  | handlerReturn
  /-- `raise E(info)` (R801). -/
  | raise (e : Event)
  /-- `emit(r)` (R860). -/
  | emit (r : Report)
  deriving DecidableEq, Repr

end Sys2Proof
end

