-- ==== Sys2Proof/Config.lean ====
section
/-! DEFINITION. The parameters of 00_scope.md R8: the values the source or the spec fixes, and the OPEN ones, which are
opaque constants. -/

namespace Sys2Proof

/-- The parameters a model takes as an argument (00_scope.md R8): the OPEN ones, and `RB_N`, whose decided value is 24 and
which the rules allow in 2..256. They stand in `State.params`, and no rule writes them (log 1). -/
structure Params where
  /-- `RB_N` -/
  rbN : Nat
  /-- `VERIFY_ADDR` -/
  verifyAddr : Addr
  /-- `BURST_ADDR` -/
  burstAddr : Addr
  /-- `DIAG_ADDR[0..4]` -/
  diagAddr : List Addr
  /-- `SEQ_FIRST`, as stored words (30_encoding.md R307) -/
  seqFirst : List (BitVec 16)
  /-- `SEQ_REPAIR` -/
  seqRepair : List (BitVec 16)
  /-- `SEQ_CLOSE` -/
  seqClose : List (BitVec 16)
  /-- `MODE_TABLE[0]` -/
  modeTable0 : List (BitVec 16)
  /-- `MODE_TABLE[1]` -/
  modeTable1 : List (BitVec 16)
  /-- `MODE_TABLE[2]` -/
  modeTable2 : List (BitVec 16)
  /-- `MODE_TABLE[3]` -/
  modeTable3 : List (BitVec 16)
  /-- `RESET_MODE` -/
  resetMode : OpMode
  /-- `T_WAKE` -/
  tWake : Nat
  /-- `T_NCS_PULSE` -/
  tNcsPulse : Nat
  /-- `T_RESET_PULSE` -/
  tResetPulse : Nat
  /-- `T_RESET_SETTLE` -/
  tResetSettle : Nat
  /-- `T_SWW` -/
  tSww : Nat
  /-- `T_SWR` -/
  tSwr : Nat
  /-- `T_SRAD` -/
  tSrad : Nat
  /-- `T_SRX` -/
  tSrx : Nat
  /-- `T_NCS_SCLK` -/
  tNcsSclk : Nat
  /-- `T_SRAD_MOTBR` -/
  tSradMotbr : Nat
  /-- `T_BEXIT` -/
  tBexit : Nat
  /-- `T_MOTION_VALID` -/
  tMotionValid : Nat
  /-- `MAIN_PRESS_LEVEL[b]` -/
  mainPressLevel : PerMain Level
  /-- `AUX_PRESS_LEVEL[a]` -/
  auxPressLevel : PerAux Level
  /-- `SPEED_MAX` -/
  speedMax : Nat
  /-- `PAUSE` -/
  pause : Nat
  /-- `SCROLL_EDGE` -/
  scrollEdge : EdgePolarity
  deriving DecidableEq, Repr

namespace Config

/-- `BURST_LEN` (source §4.2). -/
def burstLen : Nat := 12
/-- `VERIFY_ATTEMPTS` (source §4.2). -/
def verifyAttempts : Nat := 60
/-- `T_VERIFY` (source §4.2). -/
def tVerify : Nat := 1000
/-- `VERIFY_EXPECT` (source §4.2). -/
def verifyExpect : Byte := 0x80
/-- `T_PERIOD` (source §4.7). -/
def tPeriod : Nat := 250
/-- `T_BTASK` (spec D39). -/
def tBtask : Nat := 1000
/-- `T_STASK` (spec D39). -/
def tStask : Nat := 1000
/-- `AUX_CONFIRM` (source §4.5). -/
def auxConfirm : Nat := 10
/-- `SPEED_MIN` (source §4.6). -/
def speedMin : Nat := 1
/-- `DIR_WRITE` (spec D5). -/
def dirWrite : Bool := true
/-- `CLAMP` (spec D18). -/
def reportClamp : Int := 127
/-- The decided value of `RB_N` (spec D2). -/
def decidedRbN : Nat := 24

/-! The OPEN parameters. Nothing is known of these constants beyond their types; `openParams` builds from them a parameter
set that meets every constraint of R8, and every such set can be built (log 1). -/

opaque openVerifyAddr : Addr
opaque openBurstAddr : Addr
opaque openDiagAddr : Nat → Addr
opaque openFirstEntry : Nat → BitVec 15
opaque openFirstExtra : Nat
opaque openRepairEntry : Nat → BitVec 15
opaque openCloseEntry : Nat → BitVec 15
opaque openCloseExtra : Nat
opaque openModeTable0 : List (BitVec 15)
opaque openModeTable1 : List (BitVec 15)
opaque openModeTable2 : List (BitVec 15)
opaque openModeTable3 : List (BitVec 15)
opaque openResetMode : OpMode
opaque openTWake : Nat
opaque openTNcsPulse : Nat
opaque openTResetPulse : Nat
opaque openTResetSettle : Nat
opaque openTSww : Nat
opaque openTSwr : Nat
opaque openTSrad : Nat
opaque openTSrx : Nat
opaque openTNcsSclk : Nat
opaque openTSradMotbr : Nat
opaque openTBexit : Nat
opaque openTMotionValid : Nat
opaque openMainPressLeft : Level
opaque openMainPressRight : Level
opaque openAuxPressM : Level
opaque openAuxPressS4 : Level
opaque openAuxPressS5 : Level
opaque openSpeedMaxBelow : Fin 127
opaque openPause : Nat
opaque openScrollEdge : EdgePolarity

/-- A script word from its address and value bits: bit 15 is 1 (30_encoding.md R307). -/
def scriptWord (entry : BitVec 15) : BitVec 16 := 1#1 ++ entry

/-- A register that is read one byte at a time is not the burst register (30_encoding.md R308; DEDUCED, log 18). -/
def otherThan (burst a : Addr) : Addr := if a = burst then burst + 1 else a

/-- The parameters of the machine at reset: the OPEN ones as opaque constants, `RB_N` at its decided value. -/
def openParams : Params where
  rbN := decidedRbN
  verifyAddr := otherThan openBurstAddr openVerifyAddr
  burstAddr := openBurstAddr
  diagAddr := (List.range 5).map fun i => otherThan openBurstAddr (openDiagAddr i)
  seqFirst := (List.range (openCloseExtra + openFirstExtra + 2)).map fun i => scriptWord (openFirstEntry i)
  seqRepair := (List.range 3).map fun i => scriptWord (openRepairEntry i)
  seqClose := (List.range (openCloseExtra + 1)).map fun i => scriptWord (openCloseEntry i)
  modeTable0 := openModeTable0.map scriptWord
  modeTable1 := openModeTable1.map scriptWord
  modeTable2 := openModeTable2.map scriptWord
  modeTable3 := openModeTable3.map scriptWord
  resetMode := openResetMode
  tWake := openTWake
  tNcsPulse := openTNcsPulse
  tResetPulse := openTResetPulse
  tResetSettle := openTResetSettle
  tSww := openTSww
  tSwr := openTSwr
  tSrad := openTSrad
  tSrx := openTSrx
  tNcsSclk := openTNcsSclk
  tSradMotbr := openTSradMotbr
  tBexit := openTBexit
  tMotionValid := openTMotionValid
  mainPressLevel := ⟨openMainPressLeft, openMainPressRight⟩
  auxPressLevel := ⟨openAuxPressM, openAuxPressS4, openAuxPressS5⟩
  speedMax := openSpeedMaxBelow.val + 1
  pause := openPause
  scrollEdge := openScrollEdge

end Config

/-- `T_WGAP` = max(`T_SWW`, `T_SWR`) (00_scope.md R8). -/
def Params.tWgap (p : Params) : Nat := max p.tSww p.tSwr

/-- `MODE_TABLE[m]`. -/
def Params.modeTable (p : Params) : OpMode → List (BitVec 16)
  | .highPerformance => p.modeTable0
  | .lowPower => p.modeTable1
  | .office => p.modeTable2
  | .cordedGaming => p.modeTable3

end Sys2Proof
end

