-- ==== Sys2Proof/WellFormed.lean ====
section
/-! DEFINITION. Which parameter sets and which instructions are well formed. -/

namespace Sys2Proof

/-- Why a model refuses a parameter (00_scope.md R8, 20_memory.md R201, 30_encoding.md R307). -/
inductive ParamError where
  /-- `RB_N` outside 2..256 (R8). -/
  | ringSize
  /-- An address above 127 (R201). -/
  | addressAbove127
  /-- Not five diagnostic addresses (R8). -/
  | diagCount
  /-- A script whose length R8 does not allow. -/
  | scriptLength
  /-- A script word with bit 15 = 0 (R307). -/
  | notAScriptEntry
  /-- `SPEED_MAX` outside 1..127 (R8). -/
  | speedMax
  /-- A register read one byte at a time that is the burst register (R308; DEDUCED, log 18). -/
  | readsBurstAddr
  deriving DecidableEq, Repr

/-- A script entry has bit 15 = 1 (30_encoding.md R307). -/
def isScriptEntry (w : BitVec 16) : Bool := w.getLsbD 15

/-- Every script word of a parameter set. -/
def Params.scriptWords (p : Params) : List (BitVec 16) :=
  p.seqFirst ++ p.seqRepair ++ p.seqClose ++ p.modeTable0 ++ p.modeTable1 ++ p.modeTable2 ++ p.modeTable3

/-- The first reason to refuse a parameter set, if there is one. -/
def Params.refusal (p : Params) : Option ParamError :=
  if p.rbN < 2 ∨ 256 < p.rbN then some .ringSize
  else if p.diagAddr.length ≠ 5 then some .diagCount
  else if p.seqRepair.length ≠ 3 ∨ p.seqClose.length < 1 ∨ p.seqFirst.length ≤ p.seqClose.length then some .scriptLength
  else if p.scriptWords.all isScriptEntry = false then some .notAScriptEntry
  else if p.speedMax < 1 ∨ 127 < p.speedMax then some .speedMax
  else if p.verifyAddr = p.burstAddr ∨ p.burstAddr ∈ p.diagAddr then some .readsBurstAddr
  else none

/-- A parameter set that meets every constraint of 00_scope.md R8. -/
def Params.wf (p : Params) : Bool := p.refusal.isNone

/-- An address given as a number: refused above 127 (20_memory.md R201). -/
def addrOfNat (n : Nat) : Except ParamError Addr :=
  if n ≤ 127 then .ok (BitVec.ofNat 7 n) else .error .addressAbove127

/-- The steps in which a transport fault is fatal (41_sensor_driver.md R462). -/
def SeqStep.faultIsFatal : SeqStep → Bool
  | .first | .verify | .repair | .close | .diag | .mode => true
  | .idle | .wake | .ncsPulse | .resetPulse | .settle | .mvalid | .stream | .fail => false

/-- The info an event may carry (60_exceptions.md R801). -/
def Event.wf (p : Params) : Event → Bool
  | .transportFaultInit pc => pc.step.faultIsFatal
  | .verifyTimeout attempt => attempt == Config.verifyAttempts
  | .rbOverflow slot => decide (slot < p.rbN)
  | .transportFaultCapture | .spuriousEdge _ | .auxBounce _ => true

/-- What holds of every report the IAB emits (30_encoding.md R320, R321, R322). -/
def Report.wf (r : Report) : Bool :=
  decide (r.buttons.toNat < 32) && r.dx != 0x80 && r.dy != 0x80 && r.pan == 0

/-- The operands the encodings and the rules allow an instruction: addresses by R302, R303, R308, `TICK` by R341, events by
R801, reports by R320 to R322. -/
def Instr.wellFormed (p : Params) : Instr → Bool
  | .tRead addr => addr != p.burstAddr
  | .tBurst addr => addr == p.burstAddr
  | .busRead a => a != p.burstAddr
  | .busBurst a n => a == p.burstAddr && n == Config.burstLen
  | .tick n => n != 0
  | .raise e => e.wf p
  | .emit r => r.wf
  | .tWrite _ _ | .script _ _ | .endProgram | .pin _ _ | .isr _ | .btask | .stask | .scycle | .initStim | .mode _
  | .shut | .pusht _ _ | .draint | .reserved _ | .tickms _ | .busWrite _ _ | .initCommand | .sWake | .sNcsPulse
  | .sResetPulse | .sSettle | .replay _ | .sVerify | .sRepair | .sClose | .sDiag | .sMvalid | .fatalBringupFault
  | .captureBurst | .modeSwitch _ | .push _ | .merge | .drain | .emitMotion _ | .mainEdge _ | .latchPoll _ | .auxEdge _
  | .auxConfirm _ | .auxPoll _ | .scrollEdgeA | .scrollEdgeB | .speedAdjust _ | .scrollPoll | .sensorCycle
  | .buttonCycle | .buttonMask | .scrollCycle | .shutdown _ | .handlerEntry _ | .handlerReturn => true

end Sys2Proof
end

