-- ==== Sys2Proof/Decode.lean ====
section
/-! DEFINITION. The decoders of the three instruction spaces, total on any bits, and the encoder (30_encoding.md). -/

namespace Sys2Proof

/-- Why bits are not an instruction. -/
inductive DecodeError where
  /-- A stimulus word with a nonzero field that R341 marks 0 (30_encoding.md R343). -/
  | reservedField
  /-- A stimulus word with `p` > 8 (R343). -/
  | noSuchPin
  /-- `TICK` with n = 0 (R343). -/
  | zeroTick
  /-- Bytes that are no transaction of R301 to R303: a wrong number of bytes for the command byte's direction, such as a
  superseded framing (R309). -/
  | badFraming
  /-- A script word with bit 15 = 0 (R307). -/
  | notAScriptEntry
  deriving DecidableEq, Repr

/-- The pin of a number, none above 8 (10_state.md R104). -/
def pinOfNat : Nat → Option Pin
  | 0 => some .lNo
  | 1 => some .lNc
  | 2 => some .rNo
  | 3 => some .rNc
  | 4 => some .m
  | 5 => some .s4
  | 6 => some .s5
  | 7 => some .scrA
  | 8 => some .scrB
  | _ => none

/-- The number of a pin (10_state.md R104). -/
def pinNumber : Pin → Nat
  | .lNo => 0
  | .lNc => 1
  | .rNo => 2
  | .rNc => 3
  | .m => 4
  | .s4 => 5
  | .s5 => 6
  | .scrA => 7
  | .scrB => 8

/-- The mode of a two-bit code (10_state.md R113). -/
def opModeOfBits (b : BitVec 2) : OpMode :=
  match b.toNat with
  | 0 => .highPerformance
  | 1 => .lowPower
  | 2 => .office
  | _ => .cordedGaming

/-- The two-bit code of a mode (10_state.md R113). -/
def opModeBits : OpMode → BitVec 2
  | .highPerformance => 0
  | .lowPower => 1
  | .office => 2
  | .cordedGaming => 3

/-- The command byte: direction bit, then the 7-bit address (30_encoding.md R300). -/
def commandByte (dir : Bool) (a : Addr) : Byte := BitVec.ofBool dir ++ a

/-- The direction bit of a command byte (R300). -/
def commandDir (b : Byte) : Bool := b.getLsbD 7

/-- The address field of a command byte (R300). -/
def commandAddr (b : Byte) : Addr := b.extractLsb' 0 7

/-- A stimulus word whose operand is all zero (R341, R343). -/
def decodePlain (operand : BitVec 12) (i : Instr) : Except DecodeError Instr :=
  if operand = 0 then .ok i else .error .reservedField

/-- The pin operand `p = w[11:8]` (R342). -/
def decodePin (operand : BitVec 12) : Except DecodeError Pin :=
  match pinOfNat (operand.extractLsb' 8 4).toNat with
  | some p => .ok p
  | none => .error .noSuchPin

/-- `PIN p, l`: [11:8] = p, [7:1] = 0, [0] = l (R341). Of two grounds to refuse it reports the reserved field (DESIGN CHOICE,
log 31). -/
def decodePinWord (operand : BitVec 12) : Except DecodeError Instr :=
  if operand.extractLsb' 1 7 = 0 then
    match decodePin operand with
    | .ok p => .ok (.pin p (operand.getLsbD 0))
    | .error e => .error e
  else .error .reservedField

/-- `ISR p`: [11:8] = p, [7:0] = 0 (R341). -/
def decodeIsrWord (operand : BitVec 12) : Except DecodeError Instr :=
  if operand.extractLsb' 0 8 = 0 then
    match decodePin operand with
    | .ok p => .ok (.isr p)
    | .error e => .error e
  else .error .reservedField

/-- `MODE m`: [11:2] = 0, [1:0] = m (R341). -/
def decodeModeWord (operand : BitVec 12) : Except DecodeError Instr :=
  if operand.extractLsb' 2 10 = 0 then .ok (.mode (opModeOfBits (operand.extractLsb' 0 2)))
  else .error .reservedField

/-- A stimulus word: [15:12] = CLASS, [11:0] = operand (30_encoding.md R340 to R343). The reserved classes 0xC to 0xF are the
row `RESERVED`, whose meaning is the refusal of 47_stimulus.md R762. -/
def decodeStim (w : BitVec 16) : Except DecodeError Instr :=
  let operand := w.extractLsb' 0 12
  match (w.extractLsb' 12 4).toNat with
  | 0 => decodePlain operand .endProgram
  | 1 => decodePinWord operand
  | 2 => decodeIsrWord operand
  | 3 => if operand = 0 then .error .zeroTick else .ok (.tick operand)
  | 4 => decodePlain operand .btask
  | 5 => decodePlain operand .stask
  | 6 => decodePlain operand .scycle
  | 7 => decodePlain operand .initStim
  | 8 => decodeModeWord operand
  | 9 => decodePlain operand .shut
  | 10 => .ok (.pusht (w.extractLsb' 6 6) (w.extractLsb' 0 6))
  | 11 => decodePlain operand .draint
  | _ => .ok (.reserved (w.extractLsb' 0 14))

/-- The bytes the IAB sends in one transaction, read as a receiver reads them (30_encoding.md R300 to R304): a command byte
with `DIR` = 1 is a write and one byte follows; otherwise the address tells a burst from a single-byte read. -/
def decodeBus (burstAddr : Addr) : List Byte → Except DecodeError Instr
  | [c] =>
    if commandDir c = Config.dirWrite then .error .badFraming
    else if commandAddr c = burstAddr then .ok (.tBurst (commandAddr c))
    else .ok (.tRead (commandAddr c))
  | [c, d] => if commandDir c = Config.dirWrite then .ok (.tWrite (commandAddr c) d) else .error .badFraming
  | _ => .error .badFraming

/-- A script entry: [15] = 1, [14:8] = ADDR, [7:0] = VALUE (R307). -/
def decodeScript (w : BitVec 16) : Except DecodeError Instr :=
  if isScriptEntry w then .ok (.script (w.extractLsb' 8 7) (w.extractLsb' 0 8)) else .error .notAScriptEntry

/-- The instruction some bits stand for in their space. -/
def decode (burstAddr : Addr) : Code → Except DecodeError Instr
  | .stim w => decodeStim w
  | .bus bytes => decodeBus burstAddr bytes
  | .script w => decodeScript w

/-- A stimulus word from its class and operand (R340). -/
def stimWord (cls : BitVec 4) (operand : BitVec 12) : BitVec 16 := cls ++ operand

/-- The codes of an instruction, in order: one for an encoded instruction, `k` for `TICKMS k` (R344), none for an internal
operation (R346). -/
def encode : Instr → List Code
  | .tWrite addr data => [.bus [commandByte Config.dirWrite addr, data]]
  | .tRead addr => [.bus [commandByte (!Config.dirWrite) addr]]
  | .tBurst addr => [.bus [commandByte (!Config.dirWrite) addr]]
  | .script addr value => [.script ((1#1 ++ addr) ++ value)]
  | .endProgram => [.stim (stimWord 0x0 0)]
  | .pin p l => [.stim (stimWord 0x1 (BitVec.ofNat 4 (pinNumber p) ++ (0#7 ++ BitVec.ofBool l)))]
  | .isr p => [.stim (stimWord 0x2 (BitVec.ofNat 4 (pinNumber p) ++ 0#8))]
  | .tick n => [.stim (stimWord 0x3 n)]
  | .btask => [.stim (stimWord 0x4 0)]
  | .stask => [.stim (stimWord 0x5 0)]
  | .scycle => [.stim (stimWord 0x6 0)]
  | .initStim => [.stim (stimWord 0x7 0)]
  | .mode m => [.stim (stimWord 0x8 (0#10 ++ opModeBits m))]
  | .shut => [.stim (stimWord 0x9 0)]
  | .pusht dx dy => [.stim (stimWord 0xA (dx ++ dy))]
  | .draint => [.stim (stimWord 0xB 0)]
  | .reserved w => [.stim (3#2 ++ w)]
  | .tickms k => List.replicate k (.stim (stimWord 0x3 1000))
  | .busWrite _ _ | .busRead _ | .busBurst _ _ | .initCommand | .sWake | .sNcsPulse | .sResetPulse | .sSettle
  | .replay _ | .sVerify | .sRepair | .sClose | .sDiag | .sMvalid | .fatalBringupFault | .captureBurst
  | .modeSwitch _ | .push _ | .merge | .drain | .emitMotion _ | .mainEdge _ | .latchPoll _ | .auxEdge _
  | .auxConfirm _ | .auxPoll _ | .scrollEdgeA | .scrollEdgeB | .speedAdjust _ | .scrollPoll | .sensorCycle
  | .buttonCycle | .buttonMask | .scrollCycle | .shutdown _ | .handlerEntry _ | .handlerReturn | .raise _
  | .emit _ => []

/-- The instructions that have bits of their own (R346): neither internal nor the assembler's `TICKMS`. -/
def hasCode : Instr → Bool
  | .tWrite _ _ | .tRead _ | .tBurst _ | .script _ _ | .endProgram | .pin _ _ | .isr _ | .tick _ | .btask | .stask
  | .scycle | .initStim | .mode _ | .shut | .pusht _ _ | .draint | .reserved _ => true
  | .tickms _ | .busWrite _ _ | .busRead _ | .busBurst _ _ | .initCommand | .sWake | .sNcsPulse | .sResetPulse
  | .sSettle | .replay _ | .sVerify | .sRepair | .sClose | .sDiag | .sMvalid | .fatalBringupFault | .captureBurst
  | .modeSwitch _ | .push _ | .merge | .drain | .emitMotion _ | .mainEdge _ | .latchPoll _ | .auxEdge _
  | .auxConfirm _ | .auxPoll _ | .scrollEdgeA | .scrollEdgeB | .speedAdjust _ | .scrollPoll | .sensorCycle
  | .buttonCycle | .buttonMask | .scrollCycle | .shutdown _ | .handlerEntry _ | .handlerReturn | .raise _
  | .emit _ => false

/-- An illegal stimulus word (30_encoding.md R343): a reserved class, a nonzero field that R341 marks 0, `p` > 8, or `TICK`
with n = 0. -/
def illegalStim (w : BitVec 16) : Bool :=
  let operand := w.extractLsb' 0 12
  match (w.extractLsb' 12 4).toNat with
  | 0 | 4 | 5 | 6 | 7 | 9 | 11 => operand != 0
  | 1 => operand.extractLsb' 1 7 != 0 || decide (8 < (operand.extractLsb' 8 4).toNat)
  | 2 => operand.extractLsb' 0 8 != 0 || decide (8 < (operand.extractLsb' 8 4).toNat)
  | 3 => operand == 0
  | 8 => operand.extractLsb' 2 10 != 0
  | 10 => false
  | _ => true

/-- The space the bits of an opcode-table row stand in, by the row's width: 16 bits are a stimulus word, 8 bits a command byte
of the bus (log 17). -/
def tableCode (nbits w : Nat) : Option Code :=
  if nbits = 16 then some (.stim (BitVec.ofNat 16 w))
  else if nbits = 8 then some (.bus [BitVec.ofNat 8 w])
  else none

/-- The instruction the decoder reads from the bits of an opcode-table row. -/
def decodeTableWord (nbits w : Nat) : Option Instr :=
  match tableCode nbits w with
  | none => none
  | some c => (decode Config.openParams.burstAddr c).toOption

end Sys2Proof
end

