-- ==== Sys2Proof/Machine/State.lean ====
section
/-! DEFINITION. The state of the IAB (10_state.md), with the inputs and observations the spec speaks of, the reasons a step
stops, and the state after reset (70_reset_and_hazards.md R900). -/

namespace Sys2Proof.Machine

/-- Who takes a step (60_exceptions.md R840). -/
inductive Agent where
  | environment | sensor | button | scroll
  deriving DecidableEq, Repr

/-- A step of the environment, the dispatcher, the button task or the scroll task (60_exceptions.md R840). -/
inductive Act where
  /-- The environment drives a pin (R851). -/
  | pin (p : Pin) (l : Level)
  /-- The dispatcher enters the handler of a pin (R820). -/
  | isr (p : Pin)
  /-- The environment lets a positive number of µs pass (R850). -/
  | tick (n : Nat) (positive : 0 < n)
  /-- The environment sets `SHUTDOWN_REQ` (10_state.md R161). -/
  | shutdownReq
  /-- The button task takes its next step (46_poll_loop.md R710). -/
  | button
  /-- The scroll task takes its next step (R720). -/
  | scroll
  deriving DecidableEq, Repr

/-- The rule steps of a button-task cycle (46_poll_loop.md R710): `AuxConfirm`; the three steps of `LatchPoll`
(43_button_latch.md R555); the two of `AuxPoll` (44_eager_debounce.md R610). -/
inductive ButtonStep where
  | confirm (a : AuxButton)
  | latchTake (b : MainButton)
  | latchReport (b : MainButton)
  | latchRelease (b : MainButton)
  | auxTake (a : AuxButton)
  | auxReport (a : AuxButton)
  deriving DecidableEq, Repr

/-- The three steps of `ScrollPoll` (45_scroll_decoder.md R660) with the values taken in step 1. -/
inductive ScrollStep where
  | take
  | adjust (ev : Bool) (d : ScrollDir)
  | report (d : ScrollDir)
  deriving DecidableEq, Repr

/-- What a transaction of the sensor task is for: an entry of a script (41_sensor_driver.md R457), a verification read (R456),
a diagnostic read (R458) or a capture (R465). -/
inductive BusCall where
  | entry (sc : ScriptId) (a : Addr) (v : Byte)
  | verify
  | diag (a : Addr)
  | capture
  deriving DecidableEq, Repr

/-- Where a transaction stands between two of its actions (20_memory.md R230, 40_register_bus.md R410, R415, R420). `ts` is the
time chip-select was asserted. -/
inductive BusPhase where
  /-- The gap after the previous transaction, which ended at `t0`, is being waited for. -/
  | gap (t0 : Time)
  /-- `NCS <- 0` is next. -/
  | assert
  /-- `T_NCS_SCLK` is being waited for. -/
  | settle (ts : Time)
  /-- The bytes are sent next; a write's answer comes with them. -/
  | send (ts : Time)
  /-- `T_SRAD` or `T_SRAD_MOTBR` is being waited for, since `t0`. -/
  | delay (ts t0 : Time)
  /-- The sensor's answer to a read is next. -/
  | answer (ts : Time)
  /-- `NCS <- 1` is next. -/
  | release (ts : Time) (r : Answer (List Byte))
  /-- The transaction has ended; its caller goes on next. -/
  | returned (ts : Time) (r : Answer (List Byte))
  deriving DecidableEq, Repr

/-- Where the sensor task stands in its program, between two of its rule steps (20_memory.md R230, log 5). The sequencer's own
position is `SEQ_PC`. -/
inductive SensorPos where
  /-- At its sleep boundary, after its test; or, in a bring-up, between two sequencer steps. -/
  | idle
  /-- In the wait of `S_WAKE`, `S_NCS_PULSE`, `S_RESET_PULSE`, `S_SETTLE` or `S_MVALID`, since `t0`. -/
  | timed (t0 : Time)
  /-- The pulse is over: its line goes back to 1 next (41_sensor_driver.md R453, R454). -/
  | pulseEnd
  /-- The sequencer step is done but for its last assignments. -/
  | leave
  /-- A mode switch is done but for its last assignments (R470). -/
  | switched (m : OpMode)
  /-- In the wait of the verification poll, since `t0` (R456). -/
  | pollWait (t0 : Time)
  /-- In a transaction. -/
  | bus (c : BusCall) (ph : BusPhase)
  /-- In the loop of `Drain`, before a slot (46_poll_loop.md R701, 42_ring_buffer.md R505). -/
  | drain
  /-- In `EmitMotion`, with this much still to report (R506). -/
  | emit (rx ry : Int)
  /-- The slot is reported: `RB_R` moves on next (R505). -/
  | advance
  /-- Before step 3 of a sensor cycle (46_poll_loop.md R702). -/
  | capture
  /-- The captured sample is pushed next (R702). -/
  | push (x : Sample)
  /-- Before step 5 (R704). -/
  | sleep
  /-- In the sleep of step 5, of `T` µs since `t0`. -/
  | sleeping (t0 : Time) (T : Nat)
  /-- At the sleep boundary, before its test of `SHUTDOWN_REQ` (R705, R730). -/
  | boundary
  deriving DecidableEq, Repr

/-- A command of the board layer that the sensor task takes at its sleep boundary (60_exceptions.md R852). -/
inductive BoardCommand where
  | init
  /-- The mode switch, run to its end. -/
  | mode (m : OpMode)
  /-- The mode switch, begun: its rule steps are the sensor task's own. -/
  | startMode (m : OpMode)
  deriving DecidableEq, Repr

/-- What happens next between the operations of the sensor task: an encoded instruction, or a choice of the scheduler
(log 4). -/
inductive Item where
  /-- An instruction by its bits. -/
  | code (c : Code)
  /-- A command of the board layer. -/
  | board (c : BoardCommand)
  /-- The sensor task goes on with its program: its next sequencer step, or a sensor cycle (46_poll_loop.md R706). -/
  | sensor
  /-- The sensor task takes one rule step of its program (20_memory.md R230, 60_exceptions.md R840). -/
  | sensorStep
  /-- A step of another agent. -/
  | act (a : Act)
  deriving DecidableEq, Repr

/-- What is seen on the register bus (40_register_bus.md R401, R410, R415, R420). -/
inductive WireEvent where
  /-- `NCS` is driven to a level at a time. -/
  | ncs (l : Level) (time : Time)
  /-- The IAB sends a byte. -/
  | sent (b : Byte)
  /-- The sensor answers with bytes. -/
  | received (bytes : List Byte)
  deriving DecidableEq, Repr

/-- The value an operation gave its caller. -/
inductive Ret where
  | none
  /-- `BusWrite` (40_register_bus.md R410). -/
  | write (r : Answer Unit)
  /-- `BusRead` (R415). -/
  | read (r : Answer Byte)
  /-- `BusBurst` (R420). -/
  | burst (r : Answer (List Byte))
  /-- `CaptureBurst` (41_sensor_driver.md R465). -/
  | capture (r : Option Sample)
  /-- `ButtonMask` (46_poll_loop.md R712). -/
  | mask (m : Byte)
  deriving DecidableEq, Repr

/-- The state of the machine. INVENTORY.md names the rule of every field. -/
structure State where
  /-- the parameters (00_scope.md R8); no rule writes them -/
  params : Params
  /-- `NOW` -/
  now : Time
  /-- `PIN` -/
  pins : PerPin Level
  /-- `IRQ_PENDING` -/
  irqPending : PerPin Bool
  /-- `POWER` -/
  power : Level
  /-- `NCS` -/
  ncs : Level
  /-- `NRESET` -/
  nreset : Level
  /-- `BUS_LAST` -/
  busLast : BusKind
  /-- `BUS_LAST_END` -/
  busLastEnd : Time
  /-- `BUS_CORRUPT` -/
  busCorrupt : Bool
  /-- `DRV_STATE` -/
  drvState : DrvState
  /-- `DEGRADED` -/
  degraded : Bool
  /-- `MODE` -/
  mode : OpMode
  /-- `DIAG` -/
  diag : List Byte
  /-- `RB` -/
  rb : List Sample
  /-- `RB_W` -/
  rbW : Nat
  /-- `RB_R` -/
  rbR : Nat
  /-- `OVF_COUNT` -/
  ovfCount : BitVec 32
  /-- `SEQ_PC` -/
  seqPc : SeqPc
  /-- `ML_STATE` -/
  mlState : PerMain Contact
  /-- `ML_FLAG` -/
  mlFlag : PerMain Handshake
  /-- `AX_STATE` -/
  axState : PerAux Contact
  /-- `AX_EVENT` -/
  axEvent : PerAux Bool
  /-- `AX_CONFIRM` -/
  axConfirm : PerAux Nat
  /-- `AX_HOLD_TS` -/
  axHoldTs : PerAux Time
  /-- `SC_PHASE_A` -/
  scPhaseA : Level
  /-- `SC_PHASE_B` -/
  scPhaseB : Level
  /-- `SC_DIR` -/
  scDir : ScrollDir
  /-- `SC_SPEED` -/
  scSpeed : Nat
  /-- `SC_STOPPED` -/
  scStopped : Nat
  /-- `SC_EVENT` -/
  scEvent : Bool
  /-- `LOOP_START` -/
  loopStart : Time
  /-- `SHUTDOWN_REQ` -/
  shutdownReq : Bool
  /-- `RUN_SENSOR` -/
  runSensor : Bool
  /-- `RUN_BUTTON` -/
  runButton : Bool
  /-- `RUN_SCROLL` -/
  runScroll : Bool
  /-- `REPORTS` -/
  reports : List Report
  /-- `EVENTS` -/
  events : List Event
  /-- where the sensor task stands in its program -/
  sensorPos : SensorPos
  /-- the button task's remaining steps of its cycle; empty at its sleep boundary -/
  buttonK : List ButtonStep
  /-- when the button task's sleep began -/
  buttonSleep : Option Time
  /-- the scroll task's remaining steps of its cycle; empty at its sleep boundary -/
  scrollK : List ScrollStep
  /-- when the scroll task's sleep began -/
  scrollSleep : Option Time
  /-- model: the oracle's answers to coming reads -/
  oracle : List ReadAnswer
  /-- model: the oracle's answers to coming writes; `ok` when empty -/
  writeOracle : List (Answer Unit)
  /-- model: how far beyond its minimum each coming wait ends; 0 when empty -/
  slacks : List Int
  /-- model: what the other agents do at each coming step boundary; nothing when empty -/
  interludes : List (List Act)
  /-- model: what was seen on the bus -/
  wire : List WireEvent
  /-- model: the value the last operation gave its caller -/
  ret : Ret
  /-- model: what is still to run -/
  agenda : List Item
  /-- model: the index of the next item, the first one's being 0 -/
  pos : Nat
  /-- model: the stimulus program has ended -/
  ended : Bool
  deriving DecidableEq, Repr

/-- Why the machine faults. The spec has no trap; this is the model's own check. -/
inductive Fault where
  /-- A push, a merge or a drain reaches a ring slot outside 0..`RB_N`-1, which the spec says does not exist
  (10_state.md R116). Raised by the slot accesses of Machine/Ops.lean. Safe: no state reached from reset raises it
  (log 9). -/
  | noSuchSlot (i : Nat)
  deriving DecidableEq, Repr

/-- Why the machine refuses: a refusal of the stimulus runner (47_stimulus.md R766), or of a model asked for what the IAB
never does. A refused instruction changes no state. All are safe: nothing is claimed of a refused step. -/
inductive Refusal where
  /-- An instruction without a meaning in the model. Raised by the refused arms of `exec`. -/
  | notModelled (mnemonic : String)
  /-- Nothing is left to run: after `END`, or at the end of the program (R765). Raised by `step`. -/
  | programEnded
  /-- Bits that are no instruction (30_encoding.md R307, R309, R343). Raised by `step`. -/
  | illegalCode (e : DecodeError)
  /-- The sensor task stands inside an operation: a bring-up, a mode switch, a transaction or a cycle (20_memory.md R211,
  46_poll_loop.md R706, 70_reset_and_hazards.md R922). Raised by the sensor cycles, by `step` for another operation of the
  sensor task, and by the board commands. -/
  | sensorBusy
  /-- A word of the reserved classes (R762). Raised by `RESERVED`. -/
  | reservedClass
  /-- `IRQ_PENDING[p]` = 0 (R752, 60_exceptions.md R820). Raised by `ISR` and `HandlerEntry`. -/
  | irqNotPending (p : Pin)
  /-- The loop's `RUN_` bit is 0 (R754 to R759). Raised by the cycles, `INIT`, `MODE` and `ModeSwitch`. -/
  | loopStopped (l : Loop)
  /-- The init command outside UNPOWERED, `S_IDLE` (41_sensor_driver.md R451, R757). -/
  | notUnpowered
  /-- A mode switch or a capture outside STREAMING, `S_STREAM` (R465, R470, R758). -/
  | notStreaming
  /-- A sequencer operation at another `SEQ_STEP` than its own (R450). -/
  | notAtStep
  /-- A bus operation where 40_register_bus.md R402 allows none. -/
  | busNotPermitted
  /-- A single-byte read of `BURST_ADDR` (30_encoding.md R308). -/
  | readOfBurstAddr
  /-- A burst of another address or length (R308). -/
  | notTheBurst
  /-- A script word with bit 15 = 0 (R307). -/
  | notAScriptEntry
  /-- A read needs an answer and the oracle queue is empty (R764). -/
  | oracleEmpty
  /-- The next oracle entry is of the wrong kind (R764). -/
  | oracleWrongKind
  deriving DecidableEq, Repr

/-- A reason to stop, as the operations of the machine give it. -/
inductive Stop where
  | fault (f : Fault)
  | refused (r : Refusal)
  deriving DecidableEq, Repr

/-- The reset state under given parameters (70_reset_and_hazards.md R900). The elements that R900 leaves unspecified are zero
(DESIGN CHOICE, log 2). The index `pos` that the runner reports counts from 0 (DESIGN CHOICE, log 10). -/
def State.resetWith (p : Params) : State where
  params := p
  now := 0
  pins := ⟨false, false, false, false, false, false, false, false, false⟩
  irqPending := ⟨false, false, false, false, false, false, false, false, false⟩
  power := false
  ncs := true
  nreset := true
  busLast := .none
  busLastEnd := 0
  busCorrupt := false
  drvState := .unpowered
  degraded := false
  mode := p.resetMode
  diag := [0, 0, 0, 0, 0]
  rb := List.replicate p.rbN ⟨0, 0, 0⟩
  rbW := 0
  rbR := 0
  ovfCount := 0
  seqPc := ⟨.idle, 0, 0⟩
  mlState := ⟨.up, .up⟩
  mlFlag := ⟨.clear, .clear⟩
  axState := ⟨.up, .up, .up⟩
  axEvent := ⟨false, false, false⟩
  axConfirm := ⟨0, 0, 0⟩
  axHoldTs := ⟨0, 0, 0⟩
  scPhaseA := false
  scPhaseB := false
  scDir := .none
  scSpeed := Config.speedMin
  scStopped := 0
  scEvent := false
  loopStart := 0
  shutdownReq := false
  runSensor := true
  runButton := true
  runScroll := true
  reports := []
  events := []
  sensorPos := .idle
  buttonK := []
  buttonSleep := none
  scrollK := []
  scrollSleep := none
  oracle := []
  writeOracle := []
  slacks := []
  interludes := []
  wire := []
  ret := .none
  agenda := []
  pos := 0
  ended := false

/-- The machine right after reset: no program and no input is placed (log 3). -/
def State.reset : State := State.resetWith Config.openParams

end Sys2Proof.Machine
end

