-- ==== Sys2Proof/Machine/Flags.lean ====
section
/-! DEFINITION. The decisions behind the IAB's flags: which edges interrupt, what a handler commits, how the scroll speed
moves. Each is a function of plain values. -/

namespace Sys2Proof.Machine

/-- `EdgeSelected(p, old, new)` (60_exceptions.md R811): both edges of the button pins (43_button_latch.md R553,
44_eager_debounce.md R601), one polarity of the scroll pins (45_scroll_decoder.md R652). -/
def edgeSelected (scrollEdge : EdgePolarity) (p : Pin) (old new : Level) : Bool :=
  match p with
  | .lNo | .lNc | .rNo | .rNc | .m | .s4 | .s5 => old != new
  | .scrA | .scrB =>
    match scrollEdge with
    | .rising => !old && new
    | .falling => old && !new

/-- What a main-button handler reads from its two pins: nothing when they agree; otherwise the NO pin decides
(43_button_latch.md R550, R551). -/
def mainContact (pressLevel no nc : Level) : Option Contact :=
  if no = nc then none else some (if no = pressLevel then .down else .up)

/-- A transition on pin A is UP if B is HIGH (45_scroll_decoder.md R650). -/
def scrollDirOnA (b : Level) : ScrollDir := if b then .up else .down

/-- A transition on pin B is DOWN if A is HIGH (R651). -/
def scrollDirOnB (a : Level) : ScrollDir := if a then .down else .up

/-- `SC_SPEED` and `SC_STOPPED` after `SpeedAdjust(ev)` (R655). -/
def adjustedSpeed (speedMax pause : Nat) (ev : Bool) (speed stopped : Nat) : Nat × Nat :=
  if ev then (min (speed + 1) speedMax, 0)
  else if speed > Config.speedMin then
    if stopped + 1 > pause then (speed - 1, 0) else (speed, stopped + 1)
  else (speed, stopped)

/-- The gap a transaction keeps after the previous one (40_register_bus.md R425). -/
def gapNeeded (p : Params) : BusKind → Nat
  | .none => 0
  | .write => p.tWgap
  | .read => p.tSrx
  | .burst => p.tBexit

end Sys2Proof.Machine
end

