-- ==== Sys2Proof/Machine/Operands.lean ====
section
/-! DEFINITION. Operand forms and layouts: the burst payload, the reports of a motion sample, the button mask, the report
record, the codes of enumerations and the status registers. -/

namespace Sys2Proof.Machine

/-! ### One value per pin or button -/

/-- The value of a pin. -/
def perPinGet {α : Type} (v : PerPin α) : Pin → α
  | .lNo => v.lNo
  | .lNc => v.lNc
  | .rNo => v.rNo
  | .rNc => v.rNc
  | .m => v.m
  | .s4 => v.s4
  | .s5 => v.s5
  | .scrA => v.scrA
  | .scrB => v.scrB

/-- The values with one pin's replaced. -/
def perPinSet {α : Type} (v : PerPin α) (p : Pin) (x : α) : PerPin α :=
  match p with
  | .lNo => { v with lNo := x }
  | .lNc => { v with lNc := x }
  | .rNo => { v with rNo := x }
  | .rNc => { v with rNc := x }
  | .m => { v with m := x }
  | .s4 => { v with s4 := x }
  | .s5 => { v with s5 := x }
  | .scrA => { v with scrA := x }
  | .scrB => { v with scrB := x }

/-- The value of a main button. -/
def perMainGet {α : Type} (v : PerMain α) : MainButton → α
  | .left => v.left
  | .right => v.right

/-- The values with one main button's replaced. -/
def perMainSet {α : Type} (v : PerMain α) (b : MainButton) (x : α) : PerMain α :=
  match b with
  | .left => { v with left := x }
  | .right => { v with right := x }

/-- The value of an auxiliary button. -/
def perAuxGet {α : Type} (v : PerAux α) : AuxButton → α
  | .m => v.m
  | .s4 => v.s4
  | .s5 => v.s5

/-- The values with one auxiliary button's replaced. -/
def perAuxSet {α : Type} (v : PerAux α) (a : AuxButton) (x : α) : PerAux α :=
  match a with
  | .m => { v with m := x }
  | .s4 => { v with s4 := x }
  | .s5 => { v with s5 := x }

/-- `NO(b)`, the normally-open pin of a main button (43_button_latch.md). -/
def noPin : MainButton → Pin
  | .left => .lNo
  | .right => .rNo

/-- `NC(b)`, the normally-closed pin of a main button. -/
def ncPin : MainButton → Pin
  | .left => .lNc
  | .right => .rNc

/-- `pin(a)`, the pin of an auxiliary button (44_eager_debounce.md). -/
def auxPin : AuxButton → Pin
  | .m => .m
  | .s4 => .s4
  | .s5 => .s5

/-! ### The burst payload -/

/-- dx of a burst payload: `{b[3], b[2]}` (30_encoding.md R306, 20_memory.md R202). -/
def burstDx (bytes : List Byte) : BitVec 16 := bytes.getD 3 0 ++ bytes.getD 2 0

/-- dy of a burst payload: `{b[5], b[4]}` (R306). -/
def burstDy (bytes : List Byte) : BitVec 16 := bytes.getD 5 0 ++ bytes.getD 4 0

/-- The sample of a burst payload: none when the motion byte is 0x00 (41_sensor_driver.md R465, R468). -/
def burstSample (bytes : List Byte) (ts : Time) : Option Sample :=
  if bytes.getD 0 0 = 0x00 then none else some ⟨burstDx bytes, burstDy bytes, ts⟩

/-! ### Reports -/

/-- A motion report: zero button, wheel and pan fields (42_ring_buffer.md R506, R507). -/
def motionReport (cx cy : Int) : Report := ⟨0x00, BitVec.ofInt 8 cx, BitVec.ofInt 8 cy, 0, 0⟩

/-- The reports of the deltas still to emit (R506), at most `fuel` of them: each takes the remainder clamped to ±`CLAMP`,
until nothing remains. -/
def motionReports : Nat → Int → Int → List Report
  | 0, _, _ => []
  | fuel + 1, rx, ry =>
    let cx := clamp rx (-Config.reportClamp) Config.reportClamp
    let cy := clamp ry (-Config.reportClamp) Config.reportClamp
    motionReport cx cy ::
      (if rx - cx = 0 ∧ ry - cy = 0 then [] else motionReports fuel (rx - cx) (ry - cy))

/-- The reports of one sample, in order (R506). Each report but the last takes at least one from |dx| + |dy|, so this many
reports always suffice. -/
def sampleReports (s : Sample) : List Report :=
  motionReports (s.dx.toInt.natAbs + s.dy.toInt.natAbs + 1) s.dx.toInt s.dy.toInt

/-- A wheel report of ±speed (45_scroll_decoder.md R660). -/
def wheelReport (d : ScrollDir) (speed : Nat) : Report :=
  ⟨0x00, 0, 0, if d = .up then BitVec.ofInt 8 speed else BitVec.ofInt 8 (-speed), 0⟩

/-- The bit of a button: 1 when DOWN. -/
def contactBit : Contact → Bool
  | .up => false
  | .down => true

/-- `ButtonMask()`: bit 0 left, 1 right, 2 middle, 3 side-5, 4 side-4 (46_poll_loop.md R712). -/
def buttonMaskOf (ml : PerMain Contact) (ax : PerAux Contact) : Byte :=
  (((((0#3 ++ BitVec.ofBool (contactBit ax.s4)) ++ BitVec.ofBool (contactBit ax.s5)) ++ BitVec.ofBool (contactBit ax.m))
    ++ BitVec.ofBool (contactBit ml.right)) ++ BitVec.ofBool (contactBit ml.left))

/-- A button report (43_button_latch.md R555, 44_eager_debounce.md R610). -/
def buttonReport (mask : Byte) : Report := ⟨mask, 0, 0, 0, 0⟩

/-- The five bytes of a report record, byte 0 first (30_encoding.md R320). -/
def reportBytes (r : Report) : List Byte := [r.buttons, r.dx, r.dy, r.wheel, r.pan]

/-! ### Codes -/

/-- The code of a driver state (10_state.md R111). -/
def drvStateCode : DrvState → BitVec 3
  | .unpowered => 0
  | .resetting => 1
  | .programming => 2
  | .verified => 3
  | .degraded => 4
  | .streaming => 5
  | .failed => 6

/-- The code of `BUS_LAST` (R170). -/
def busKindCode : BusKind → BitVec 2
  | .none => 0
  | .write => 1
  | .read => 2
  | .burst => 3

/-- The code of a handshake flag (R131). -/
def handshakeCode : Handshake → BitVec 2
  | .clear => 0
  | .set => 1
  | .read => 2

/-- The code of a scroll direction (R151). -/
def scrollDirCode : ScrollDir → BitVec 2
  | .none => 0
  | .up => 1
  | .down => 2

/-- The code of an event (60_exceptions.md R801). -/
def eventCode : Event → Nat
  | .transportFaultInit _ => 1
  | .verifyTimeout _ => 2
  | .transportFaultCapture => 3
  | .spuriousEdge _ => 4
  | .rbOverflow _ => 5
  | .auxBounce _ => 6

/-- The number of a main button in an event's info (R801). -/
def mainButtonCode : MainButton → Nat
  | .left => 0
  | .right => 1

/-- The number of an auxiliary button in an event's info (R801). -/
def auxButtonCode : AuxButton → Nat
  | .m => 0
  | .s4 => 1
  | .s5 => 2

/-- The info of an event (R801). -/
def eventInfo : Event → EventInfo
  | .transportFaultInit pc => .position pc
  | .verifyTimeout attempt => .number attempt
  | .transportFaultCapture => .none
  | .spuriousEdge b => .number (mainButtonCode b)
  | .rbOverflow slot => .number slot
  | .auxBounce a => .number (auxButtonCode a)

/-- The record of an event in `EVENTS`: its code and its info (R801). -/
def eventRecord (e : Event) : Nat × EventInfo := (eventCode e, eventInfo e)

/-- The event trace `EVENTS` as an observer reads it (R801, R872). -/
def eventTrace (s : State) : List (Nat × EventInfo) := s.events.map eventRecord

/-! ### Status registers (10_state.md R170) -/

/-- A one-bit field at a place of a status register. -/
def srBit (b : Bool) (place : Nat) : BitVec 32 := (BitVec.ofBool b).setWidth 32 <<< place

/-- A field at a place of a status register. -/
def srField {w : Nat} (v : BitVec w) (place : Nat) : BitVec 32 := v.setWidth 32 <<< place

/-- Nine bits, one a pin, bit p for pin p. -/
def srPins (v : PerPin Bool) : BitVec 32 :=
  srBit v.lNo 0 ||| srBit v.lNc 1 ||| srBit v.rNo 2 ||| srBit v.rNc 3 ||| srBit v.m 4 ||| srBit v.s4 5 ||| srBit v.s5 6
    ||| srBit v.scrA 7 ||| srBit v.scrB 8

/-- SR10, SR11: the latch of a main button. -/
def srLatch (s : State) (b : MainButton) : BitVec 32 :=
  srBit (contactBit (perMainGet s.mlState b)) 0 ||| srField (handshakeCode (perMainGet s.mlFlag b)) 1

/-- SR12 to SR14: the debouncer of an auxiliary button. -/
def srAux (s : State) (a : AuxButton) : BitVec 32 :=
  srBit (contactBit (perAuxGet s.axState a)) 0 ||| srBit (perAuxGet s.axEvent a) 1
    ||| srField (BitVec.ofNat 4 (perAuxGet s.axConfirm a)) 2

/-- What an observer reads from status register `SR<n>`, as a number; bits not listed read 0, and there is none above SR25.
SR19 and SR20 are as wide as their parameter makes them, so they show their value whole. -/
def statusReg (s : State) : Nat → Option Nat
  | 0 => some (srField (drvStateCode s.drvState) 0 ||| srBit s.degraded 3 ||| srField (opModeBits s.mode) 4).toNat
  | 1 => some (srBit s.power 0 ||| srBit s.ncs 1 ||| srBit s.nreset 2 ||| srField (busKindCode s.busLast) 3).toNat
  | 2 => some (s.diag.getD 0 0).toNat
  | 3 => some (s.diag.getD 1 0).toNat
  | 4 => some (s.diag.getD 2 0).toNat
  | 5 => some (s.diag.getD 3 0).toNat
  | 6 => some (s.diag.getD 4 0).toNat
  | 7 => some (BitVec.ofNat 8 s.rbW).toNat
  | 8 => some (BitVec.ofNat 8 s.rbR).toNat
  | 9 => some s.ovfCount.toNat
  | 10 => some (srLatch s .left).toNat
  | 11 => some (srLatch s .right).toNat
  | 12 => some (srAux s .m).toNat
  | 13 => some (srAux s .s4).toNat
  | 14 => some (srAux s .s5).toNat
  | 15 => some s.axHoldTs.m.toNat
  | 16 => some s.axHoldTs.s4.toNat
  | 17 => some s.axHoldTs.s5.toNat
  | 18 => some (srBit s.scPhaseA 0 ||| srBit s.scPhaseB 1 ||| srField (scrollDirCode s.scDir) 2 ||| srBit s.scEvent 4).toNat
  | 19 => some s.scSpeed
  | 20 => some s.scStopped
  | 21 => some s.now.toNat
  | 22 => some s.loopStart.toNat
  | 23 => some (srPins s.pins).toNat
  | 24 => some (srPins s.irqPending).toNat
  | 25 => some (srBit s.shutdownReq 0 ||| srBit s.runSensor 1 ||| srBit s.runButton 2 ||| srBit s.runScroll 3).toNat
  | _ => none

end Sys2Proof.Machine
end

