-- ==== Sys2Proof/Machine/Ops.lean ====
section
/-! DEFINITION. The named operations over the state that the instructions share: pins, time, events and reports, the
handlers with their entry and return, the steps of the button and scroll tasks, step boundaries, waits, chip-select framing
and ring slots. -/

namespace Sys2Proof.Machine

/-! ### Outcomes -/

/-- The outcome of an operation that ended in a state. -/
def toOutcome : Except Stop State → Host.Outcome State Fault Refusal
  | .ok s => .next s
  | .error (.fault f) => .fault f
  | .error (.refused r) => .refused r

/-- A refusal, as operations give it. -/
def refuse {α : Type} (r : Refusal) : Except Stop α := .error (.refused r)

/-! ### Observations -/

/-- `emit(r)`: appends to `REPORTS`; never blocks and never fails (60_exceptions.md R860). -/
def emitReport (r : Report) (s : State) : State := { s with reports := s.reports ++ [r] }

/-- `raise E(info)`: appends to `EVENTS` (R801). -/
def raiseEvent (e : Event) (s : State) : State := { s with events := s.events ++ [e] }

/-- The value an operation gives its caller. -/
def setRet (r : Ret) (s : State) : State := { s with ret := r }

/-- Something is seen on the bus. -/
def logWire (w : WireEvent) (s : State) : State := { s with wire := s.wire ++ [w] }

/-! ### Time and pins -/

/-- Time passes: `NOW <- wrap_32(NOW + n)` (R850). -/
def advance (n : Nat) (s : State) : State := { s with now := s.now + BitVec.ofNat 32 n }

/-- The level of a pin. -/
def pinLevel (s : State) (p : Pin) : Level := perPinGet s.pins p

/-- Whether a pin's interrupt is pending. -/
def pending (s : State) (p : Pin) : Bool := perPinGet s.irqPending p

/-- The pin takes a level. -/
def setPin (p : Pin) (l : Level) (s : State) : State := { s with pins := perPinSet s.pins p l }

/-- The pin's pending bit takes a value. -/
def setPending (p : Pin) (v : Bool) (s : State) : State := { s with irqPending := perPinSet s.irqPending p v }

/-- The environment drives a pin; a selected edge latches the pin's interrupt in the same step (47_stimulus.md R751,
60_exceptions.md R811, R851). -/
def drivePin (p : Pin) (l : Level) (s : State) : State :=
  let old := pinLevel s p
  let s := setPin p l s
  if old ≠ l ∧ edgeSelected s.params.scrollEdge p old l then setPending p true s else s

/-! ### Handlers -/

/-- `MainEdge(b)` (43_button_latch.md R550). -/
def mainEdge (b : MainButton) (s : State) : State :=
  match mainContact (perMainGet s.params.mainPressLevel b) (pinLevel s (noPin b)) (pinLevel s (ncPin b)) with
  | none => raiseEvent (.spuriousEdge b) s
  | some new =>
    if new ≠ perMainGet s.mlState b then
      { s with mlFlag := perMainSet s.mlFlag b .set, mlState := perMainSet s.mlState b new }
    else s

/-- `AuxEdge(a)` (44_eager_debounce.md R600). -/
def auxEdge (a : AuxButton) (s : State) : State :=
  if perAuxGet s.axState a = .up then
    { s with
      axState := perAuxSet s.axState a .down
      axEvent := perAuxSet s.axEvent a true
      axHoldTs := perAuxSet s.axHoldTs a s.now }
  else if perAuxGet s.axConfirm a = 0 then { s with axConfirm := perAuxSet s.axConfirm a Config.auxConfirm }
  else s

/-- What both scroll handlers do with the direction they infer (45_scroll_decoder.md R650, R651). -/
def scrollEdge (d : ScrollDir) (s : State) : State :=
  { s with scPhaseA := pinLevel s .scrA, scPhaseB := pinLevel s .scrB, scDir := d, scEvent := true }

/-- `ScrollEdgeA()` (R650). -/
def scrollEdgeA (s : State) : State := scrollEdge (scrollDirOnA (pinLevel s .scrB)) s

/-- `ScrollEdgeB()` (R651). -/
def scrollEdgeB (s : State) : State := scrollEdge (scrollDirOnB (pinLevel s .scrA)) s

/-- The handler of each pin (60_exceptions.md R821). -/
def handler : Pin → State → State
  | .lNo | .lNc => mainEdge .left
  | .rNo | .rNc => mainEdge .right
  | .m => auxEdge .m
  | .s4 => auxEdge .s4
  | .s5 => auxEdge .s5
  | .scrA => scrollEdgeA
  | .scrB => scrollEdgeB

/-- Handler return: nothing was saved, so nothing is restored, and no instruction is needed (R823). -/
def handlerReturn (s : State) : State := s

/-- Handler entry, the analogue of taking a trap: the pending bit is cleared and the handler runs to completion and returns
as part of this step; nothing is saved, no mode, mask or stack changes, and there is no handler address (R820, R823). -/
def handlerEntry (p : Pin) (s : State) : State := handlerReturn (handler p (setPending p false s))

/-! ### The button task -/

/-- `ButtonMask()` of the committed states (46_poll_loop.md R712). -/
def buttonMask (s : State) : Byte := buttonMaskOf s.mlState s.axState

/-- `AuxConfirm(a)`, one atomic step (44_eager_debounce.md R605). -/
def auxConfirm (a : AuxButton) (s : State) : State :=
  let n := perAuxGet s.axConfirm a
  if n = 0 then s
  else if pinLevel s (auxPin a) = perAuxGet s.params.auxPressLevel a then
    raiseEvent (.auxBounce a) { s with axConfirm := perAuxSet s.axConfirm a 0 }
  else if n - 1 = 0 then
    { s with
      axConfirm := perAuxSet s.axConfirm a (n - 1)
      axState := perAuxSet s.axState a .up
      axEvent := perAuxSet s.axEvent a true }
  else { s with axConfirm := perAuxSet s.axConfirm a (n - 1) }

/-- Step 1 of `LatchPoll(b)`, atomic: whether the flag was SET; if so it becomes READ (43_button_latch.md R555). -/
def latchTake (b : MainButton) (s : State) : Bool × State :=
  if perMainGet s.mlFlag b = .set then (true, { s with mlFlag := perMainSet s.mlFlag b .read }) else (false, s)

/-- Step 2 of `LatchPoll(b)`, and step 2 of `AuxPoll(a)`: the report of all five buttons as they are now. -/
def reportButtons (s : State) : State := emitReport (buttonReport (buttonMask s)) s

/-- Step 3 of `LatchPoll(b)`, a compare-and-swap: READ becomes CLEAR, a SET stays (R555, 70_reset_and_hazards.md R916). -/
def latchRelease (b : MainButton) (s : State) : State :=
  if perMainGet s.mlFlag b = .read then { s with mlFlag := perMainSet s.mlFlag b .clear } else s

/-- Step 1 of `AuxPoll(a)`, atomic: reads and clears the event flag (44_eager_debounce.md R610). -/
def auxTake (a : AuxButton) (s : State) : Bool × State :=
  (perAuxGet s.axEvent a, { s with axEvent := perAuxSet s.axEvent a false })

/-- The rule steps of one button-task cycle, in order (46_poll_loop.md R710). -/
def buttonCycleSteps : List ButtonStep :=
  [.confirm .m, .confirm .s4, .confirm .s5, .latchTake .left, .latchTake .right, .auxTake .m, .auxTake .s4, .auxTake .s5]

/-- One rule step of the button task: the state after it, and the steps of the same call that follow it. -/
def buttonAtom : ButtonStep → State → State × List ButtonStep
  | .confirm a, s => (auxConfirm a s, [])
  | .latchTake b, s => ((latchTake b s).2, if (latchTake b s).1 then [.latchReport b, .latchRelease b] else [])
  | .latchReport _, s => (reportButtons s, [])
  | .latchRelease b, s => (latchRelease b s, [])
  | .auxTake a, s => ((auxTake a s).2, if (auxTake a s).1 then [.auxReport a] else [])
  | .auxReport _, s => (reportButtons s, [])

/-! ### The scroll task -/

/-- `SpeedAdjust(ev)` (45_scroll_decoder.md R655). -/
def speedAdjust (ev : Bool) (s : State) : State :=
  let r := adjustedSpeed s.params.speedMax s.params.pause ev s.scSpeed s.scStopped
  { s with scSpeed := r.1, scStopped := r.2 }

/-- Step 1 of `ScrollPoll`, atomic: the event, the direction, and the event cleared (R660). -/
def scrollTake (s : State) : Bool × ScrollDir × State := (s.scEvent, s.scDir, { s with scEvent := false })

/-- Step 3 of `ScrollPoll`: the wheel report of the adjusted speed (R660). -/
def reportWheel (d : ScrollDir) (s : State) : State := emitReport (wheelReport d s.scSpeed) s

/-- One rule step of the scroll task: the state after it, and the steps that follow it. -/
def scrollAtom : ScrollStep → State → State × List ScrollStep
  | .take, s => ((scrollTake s).2.2, [.adjust (scrollTake s).1 (scrollTake s).2.1])
  | .adjust ev d, s => (speedAdjust ev s, if ev then [.report d] else [])
  | .report d, s => (reportWheel d s, [])

/-! ### Sleep boundaries and shutdown -/

/-- Whether a loop is running. -/
def running (s : State) : Loop → Bool
  | .sensor => s.runSensor
  | .button => s.runButton
  | .scroll => s.runScroll

/-- The loop clears its `RUN_` bit. -/
def stopLoop (l : Loop) (s : State) : State :=
  match l with
  | .sensor => { s with runSensor := false }
  | .button => { s with runButton := false }
  | .scroll => { s with runScroll := false }

/-- What a loop does at its sleep boundary (46_poll_loop.md R705, R730). -/
def sleepBoundary (l : Loop) (s : State) : State := if s.shutdownReq then stopLoop l s else s

/-- The sequencer steps between which the sensor task runs cycles: outside a bring-up and a mode switch (46_poll_loop.md
R706). -/
def betweenCycles : SeqStep → Bool
  | .idle | .stream | .fail => true
  | .wake | .ncsPulse | .resetPulse | .settle | .first | .verify | .repair | .close | .diag | .mvalid | .mode => false

/-- The sensor task stands at its sleep boundary, its test made: not inside an operation, and in no bring-up (R705, R730). Before
that test, at the position `boundary`, its own next step makes it, and `SHUT` does not (DESIGN CHOICE, log 13). -/
def sensorAtBoundary (s : State) : Bool := s.sensorPos == .idle && betweenCycles s.seqPc.step

/-- One step of the button task on its own (R710): the next rule step of its cycle; after the last one its sleep begins; when
`T_BTASK` has passed it reaches its sleep boundary and, if it still runs, begins the next cycle. A stopped or sleeping task
takes no step. Its boundary's one test of `SHUTDOWN_REQ` is made when the sleep ends; a task already past it, with no sleep
to end, begins its next cycle without another test (DESIGN CHOICE, log 28). A release is confirmed by the tenth cycle after
its edge, the first of which may come at once (DEDUCED from R605, R930 and R932 against R711, log 29). -/
def buttonStep (s : State) : State :=
  if s.runButton then
    match s.buttonK with
    | st :: rest =>
      let r := buttonAtom st s
      let k := r.2 ++ rest
      { r.1 with buttonK := k, buttonSleep := if k = [] then some s.now else none }
    | [] =>
      match s.buttonSleep with
      | none => { s with buttonK := buttonCycleSteps }
      | some t =>
        if elapsedSince s.now t < Config.tBtask then s
        else if s.shutdownReq then stopLoop .button { s with buttonSleep := none }
        else { s with buttonSleep := none, buttonK := buttonCycleSteps }
  else s

/-- One step of the scroll task on its own (R720), as `buttonStep`, with the same one test at its boundary (DESIGN CHOICE,
log 28). -/
def scrollStep (s : State) : State :=
  if s.runScroll then
    match s.scrollK with
    | st :: rest =>
      let r := scrollAtom st s
      let k := r.2 ++ rest
      { r.1 with scrollK := k, scrollSleep := if k = [] then some s.now else none }
    | [] =>
      match s.scrollSleep with
      | none => { s with scrollK := [.take] }
      | some t =>
        if elapsedSince s.now t < Config.tStask then s
        else if s.shutdownReq then stopLoop .scroll { s with scrollSleep := none }
        else { s with scrollSleep := none, scrollK := [.take] }
  else s

/-! ### Step boundaries -/

/-- A step of another agent than `who`. A step its agent cannot take (a handler with nothing pending, a task inside its own
step) is no step (log 6). -/
def actStep (who : Agent) (a : Act) (s : State) : State :=
  match a with
  | .pin p l => drivePin p l s
  | .isr p => if pending s p then handlerEntry p s else s
  | .tick n _ => advance n s
  | .shutdownReq => { s with shutdownReq := true }
  | .button => if who = .button then s else buttonStep s
  | .scroll => if who = .scroll then s else scrollStep s

/-- A step boundary inside an operation of agent `who`: the other agents take the steps that the next interlude lists
(20_memory.md R230, 60_exceptions.md R820). With no interlude left, nothing happens: the runner's schedule. -/
def yield (who : Agent) (s : State) : State :=
  match s.interludes with
  | [] => s
  | acts :: rest => acts.foldl (fun s a => actStep who a s) { s with interludes := rest }

/-! ### Waits -/

/-- How far beyond its minimum the next wait ends. -/
def nextSlack (s : State) : Int := s.slacks.headD 0

/-- The slack of this wait is used up. -/
def dropSlack (s : State) : State := { s with slacks := s.slacks.tail }

/-- `wait` until at least `T` µs have passed since `t0` (40_register_bus.md R426): other agents may act meanwhile; then time
advances to the end of the wait. With no slack and no interlude the wait takes exactly `T` (47_stimulus.md R763). -/
def waitFrom (who : Agent) (t0 : Time) (T : Nat) (s : State) : State :=
  let s := yield who s
  advance (T + (nextSlack s).toNat - elapsedSince s.now t0) (dropSlack s)

/-- `wait(T)`. -/
def wait (who : Agent) (T : Nat) (s : State) : State := waitFrom who s.now T s

/-- A bus wait that a draw may end below its minimum: `BUS_CORRUPT <- 1` if it does (R428). -/
def busWaitFrom (t0 : Time) (T : Nat) (s : State) : State :=
  let s := yield .sensor s
  let d := ((T : Int) + nextSlack s).toNat
  let e := elapsedSince s.now t0
  let s := advance (d - e) (dropSlack s)
  if max d e < T then { s with busCorrupt := true } else s

/-- A wait inside a transaction (R410, R415, R420). -/
def busWait (T : Nat) (s : State) : State := busWaitFrom s.now T s

/-- The end of the previous transaction; with none yet, now: the unspecified `BUS_LAST_END` is not read (10_state.md R109). -/
def lastEnd (s : State) : Time := if s.busLast = .none then s.now else s.busLastEnd

/-- The wait for the gap after the previous transaction, measured from its end (R425). -/
def gapWait (s : State) : State := busWaitFrom (lastEnd s) (gapNeeded s.params s.busLast) s

/-! ### Chip-select framing -/

/-- Drives `NCS`. -/
def setNcs (l : Level) (s : State) : State := logWire (.ncs l s.now) { s with ncs := l }

/-- Sends bytes, the first one first (20_memory.md R203). -/
def sendBytes (bytes : List Byte) (s : State) : State := { s with wire := s.wire ++ bytes.map .sent }

/-- The gap, and chip-select asserted (40_register_bus.md R401, R425). -/
def busAssert (s : State) : State := setNcs false (gapWait s)

/-- The bytes the IAB sends, after the chip-select settle time. -/
def busSend (bytes : List Byte) (s : State) : State := sendBytes bytes (busWait s.params.tNcsSclk s)

/-- Chip-select deasserted: the transaction has ended (R401, R427). -/
def endTransaction (kind : BusKind) (s : State) : State :=
  { setNcs true s with busLast := kind, busLastEnd := s.now }

/-- Chip-select deasserted between two step boundaries (20_memory.md R230): other agents may act before it, and after it before
the caller goes on. -/
def busRelease (kind : BusKind) (s : State) : State := yield .sensor (endTransaction kind (yield .sensor s))

/-! ### The oracle (60_exceptions.md R861, 47_stimulus.md R764) -/

/-- `oracle.write_result()`: the next answer to a write, `ok` when none is listed. -/
def askWrite (s : State) : Answer Unit × State := (s.writeOracle.headD (.ok ()), { s with writeOracle := s.writeOracle.tail })

/-- The oracle's next entry is used up. -/
def dropOracle (s : State) : State := { s with oracle := s.oracle.tail }

/-- `oracle.read(a, 1)`: the next entry must be a byte or a fault. -/
def askByte (s : State) : Except Stop (Answer Byte × State) :=
  match s.oracle with
  | [] => refuse .oracleEmpty
  | .byte b :: _ => .ok (.ok b, logWire (.received [b]) (dropOracle s))
  | .fault :: _ => .ok (.fault, dropOracle s)
  | .burst _ :: _ => refuse .oracleWrongKind

/-- `oracle.read(a, 12)`: the next entry must be twelve bytes or a fault. -/
def askBurst (s : State) : Except Stop (Answer (List Byte) × State) :=
  match s.oracle with
  | [] => refuse .oracleEmpty
  | .burst bytes :: _ =>
    if bytes.length = Config.burstLen then .ok (.ok bytes, logWire (.received bytes) (dropOracle s))
    else refuse .oracleWrongKind
  | .fault :: _ => .ok (.fault, dropOracle s)
  | .byte _ :: _ => refuse .oracleWrongKind

/-! ### Ring slots -/

/-- Reads a ring slot whole (20_memory.md R206). -/
def readSlot (s : State) (i : Nat) : Except Stop Sample :=
  match s.rb[i]? with
  | some x => .ok x
  | none => .error (.fault (.noSuchSlot i))

/-- Writes a ring slot whole. -/
def writeSlot (i : Nat) (x : Sample) (s : State) : Except Stop State :=
  if i < s.rb.length then .ok { s with rb := s.rb.set i x } else .error (.fault (.noSuchSlot i))

/-- The index after `i`, modulo `RB_N`. -/
def nextIndex (s : State) (i : Nat) : Nat := (i + 1) % s.params.rbN

/-- The live count (42_ring_buffer.md R502). -/
def liveCount (s : State) : Nat := (s.rbW + s.params.rbN - s.rbR) % s.params.rbN

end Sys2Proof.Machine
end

