-- ==== Sys2Proof/Machine/ButtonLatch.lean ====
section
/-! DEFINITION. The ButtonLatch operations (43_button_latch.md). -/

namespace Sys2Proof.Machine

/-- Steps 2 and 3 of `LatchPoll(b)`, with handlers free to run before each (R555). -/
def latchFinish (b : MainButton) (s : State) : State :=
  latchRelease b (yield .button (reportButtons (yield .button s)))

/-- `LatchPoll(b)` (R555). -/
def latchPoll (b : MainButton) (s : State) : State :=
  if (latchTake b s).1 then latchFinish b (latchTake b s).2 else (latchTake b s).2

/-- `MainEdge(b)` (R550). -/
def execMainEdge (b : MainButton) (s : State) : Host.Outcome State Fault Refusal := .next (mainEdge b s)

/-- `LatchPoll(b)` (R555). -/
def execLatchPoll (b : MainButton) (s : State) : Host.Outcome State Fault Refusal := .next (latchPoll b s)

end Sys2Proof.Machine
end

