-- ==== Sys2Proof/Machine/EagerDebouncer.lean ====
section
/-! DEFINITION. The EagerDebouncer operations (44_eager_debounce.md). -/

namespace Sys2Proof.Machine

/-- `AuxPoll(a)` (R610): the take, then, with handlers free to run before it, the report. -/
def auxPoll (a : AuxButton) (s : State) : State :=
  if (auxTake a s).1 then reportButtons (yield .button (auxTake a s).2) else (auxTake a s).2

/-- `AuxEdge(a)` (R600). -/
def execAuxEdge (a : AuxButton) (s : State) : Host.Outcome State Fault Refusal := .next (auxEdge a s)

/-- `AuxConfirm(a)` (R605). -/
def execAuxConfirm (a : AuxButton) (s : State) : Host.Outcome State Fault Refusal := .next (auxConfirm a s)

/-- `AuxPoll(a)` (R610). -/
def execAuxPoll (a : AuxButton) (s : State) : Host.Outcome State Fault Refusal := .next (auxPoll a s)

end Sys2Proof.Machine
end

