-- ==== Sys2Proof/Machine/MotionRing.lean ====
section
/-! DEFINITION. The MotionRingBuffer operations (42_ring_buffer.md). -/

namespace Sys2Proof.Machine

/-- The oldest sample added into the next-oldest slot: the sums wrap to 16 bits, the next-oldest timestamp is kept (R501). -/
def mergedSample (oldest next : Sample) : Sample := ⟨next.dx + oldest.dx, next.dy + oldest.dy, next.ts⟩

/-- `Merge()` (R501). -/
def mergeOldest (s : State) : Except Stop State :=
  let o := s.rbR
  let n := nextIndex s s.rbR
  match readSlot s o, readSlot s n with
  | .ok oldest, .ok next =>
    match writeSlot n (mergedSample oldest next) s with
    | .ok t => .ok (raiseEvent (.rbOverflow o) { t with rbR := n, ovfCount := t.ovfCount + 1 })
    | .error e => .error e
  | .error e, _ => .error e
  | _, .error e => .error e

/-- The write index takes a value. -/
def setWriteIndex (w : Nat) (s : State) : State := { s with rbW := w }

/-- `Push(dx, dy, ts)` (R500): it never blocks and never refuses; when the advanced write index meets the read index, the
oldest sample is merged forward. -/
def pushSample (x : Sample) (s : State) : Except Stop State :=
  match writeSlot s.rbW x s with
  | .error e => .error e
  | .ok t =>
    let w := nextIndex s s.rbW
    if w = s.rbR then
      match mergeOldest t with
      | .error e => .error e
      | .ok u => .ok (setWriteIndex w u)
    else .ok (setWriteIndex w t)

/-- Reports emitted by the sensor task, each its own step (R506). -/
def emitAll : List Report → State → State
  | [], s => s
  | r :: rs, s => emitAll rs (yield .sensor (emitReport r s))

/-- `EmitMotion(s)` (R506). -/
def emitMotion (x : Sample) (s : State) : State := emitAll (sampleReports x) s

/-- The read index moves to the next slot. -/
def advanceRead (s : State) : State := { s with rbR := nextIndex s s.rbR }

/-- The loop of `Drain` (R505) with at most `n` samples to go. -/
def drainLoop : Nat → State → Except Stop State
  | 0, s => .ok s
  | n + 1, s =>
    if s.rbR = s.rbW then .ok s
    else
      match readSlot s s.rbR with
      | .error e => .error e
      | .ok x => drainLoop n (yield .sensor (advanceRead (emitMotion x s)))

/-- `Drain()` (R505): at most `RB_N` - 1 samples are live (R503). -/
def drainRing (s : State) : Except Stop State := drainLoop s.params.rbN s

/-- `Push(dx, dy, ts)` (R500). -/
def execPush (x : Sample) (s : State) : Host.Outcome State Fault Refusal := toOutcome (pushSample x s)

/-- `Merge()` (R501). -/
def execMerge (s : State) : Host.Outcome State Fault Refusal := toOutcome (mergeOldest s)

/-- `Drain()` (R505). -/
def execDrain (s : State) : Host.Outcome State Fault Refusal := toOutcome (drainRing s)

/-- `EmitMotion(s)` (R506). -/
def execEmitMotion (x : Sample) (s : State) : Host.Outcome State Fault Refusal := .next (emitMotion x s)

end Sys2Proof.Machine
end

