-- ==== Sys2Proof/Machine/ScrollDecoder.lean ====
section
/-! DEFINITION. The ScrollDecoder operations (45_scroll_decoder.md). -/

namespace Sys2Proof.Machine

/-- Steps 2 and 3 of `ScrollPoll` with the values taken in step 1; other agents may act before each (R660). -/
def scrollFinish (ev : Bool) (d : ScrollDir) (s : State) : State :=
  let s := speedAdjust ev (yield .scroll s)
  if ev then reportWheel d (yield .scroll s) else s

/-- `ScrollPoll()` (R660). -/
def scrollPoll (s : State) : State :=
  scrollFinish (scrollTake s).1 (scrollTake s).2.1 (scrollTake s).2.2

/-- `ScrollEdgeA()` (R650). -/
def execScrollEdgeA (s : State) : Host.Outcome State Fault Refusal := .next (scrollEdgeA s)

/-- `ScrollEdgeB()` (R651). -/
def execScrollEdgeB (s : State) : Host.Outcome State Fault Refusal := .next (scrollEdgeB s)

/-- `SpeedAdjust(ev)` (R655). -/
def execSpeedAdjust (ev : Bool) (s : State) : Host.Outcome State Fault Refusal := .next (speedAdjust ev s)

/-- `ScrollPoll()` (R660). -/
def execScrollPoll (s : State) : Host.Outcome State Fault Refusal := .next (scrollPoll s)

end Sys2Proof.Machine
end

