-- ==== Sys2Proof/Machine/RegisterBus.lean ====
section
/-! DEFINITION. The RegisterBus operations (40_register_bus.md): `BusWrite`, `BusRead`, `BusBurst`, and the transactions
`T_WRITE`, `T_READ`, `T_BURST` given by their bytes. -/

namespace Sys2Proof.Machine

/-- `BusWrite(a, v)` (R410): a faulted transaction ends like any other (R427). -/
def busWrite (a : Addr) (v : Byte) (s : State) : Answer Unit × State :=
  let r := askWrite (busSend [commandByte Config.dirWrite a, v] (busAssert s))
  (r.1, busRelease .write r.2)

/-- `BusRead(a)` (R415); a read of `BURST_ADDR` is never issued (30_encoding.md R308). -/
def busRead (a : Addr) (s : State) : Except Stop (Answer Byte × State) :=
  if a = s.params.burstAddr then refuse .readOfBurstAddr
  else
    match askByte (busWait s.params.tSrad (busSend [commandByte (!Config.dirWrite) a] (busAssert s))) with
    | .error e => .error e
    | .ok (r, t) => .ok (r, busRelease .read t)

/-- `BusBurst(BURST_ADDR, BURST_LEN)` (R420): the answer, the time chip-select was asserted (41_sensor_driver.md R467), and
the state after. -/
def busBurst (s : State) : Except Stop (Answer (List Byte) × Time × State) :=
  let opened := busAssert s
  match askBurst (busWait s.params.tSradMotbr (busSend [commandByte (!Config.dirWrite) s.params.burstAddr] opened)) with
  | .error e => .error e
  | .ok (r, t) => .ok (r, opened.now, busRelease .burst t)

/-- Where a bus operation of a kind may be issued (R402): the sensor is powered and out of reset, and the sequencer is at a
step that issues it, as the model tells the kinds apart (DEDUCED, log 11). `RUN_SENSOR` is not tested (DESIGN CHOICE, log 32). -/
def busPermitted (kind : BusKind) (s : State) : Bool :=
  s.power && s.nreset &&
    match kind, s.seqPc.step with
    | .write, .first | .write, .repair | .write, .close | .write, .mode => true
    | .read, .verify | .read, .diag => true
    | .burst, .stream => s.drvState == .streaming
    | _, _ => false

/-- A write issued on its own, where R402 permits one. A fault is returned to its caller and nothing more (R427); that it does
not fail the driver is the model's choice (DESIGN CHOICE, log 32). -/
def issueWrite (a : Addr) (v : Byte) (s : State) : Except Stop State :=
  if busPermitted .write s then .ok (setRet (.write (busWrite a v s).1) (busWrite a v s).2) else refuse .busNotPermitted

/-- A single-byte read issued on its own, where R402 permits one; a fault as for `issueWrite` (DESIGN CHOICE, log 32). Of a read
of `BURST_ADDR` where no read is permitted it reports the latter (DESIGN CHOICE, log 31). -/
def issueRead (a : Addr) (s : State) : Except Stop State :=
  if busPermitted .read s then
    match busRead a s with
    | .error e => .error e
    | .ok (r, t) => .ok (setRet (.read r) t)
  else refuse .busNotPermitted

/-- A burst of `n` bytes from `a` issued on its own: only the motion burst exists (30_encoding.md R308), and that is the reason
reported first (DESIGN CHOICE, log 31). It does not test `RUN_SENSOR` (DESIGN CHOICE, log 32). -/
def issueBurst (a : Addr) (n : Nat) (s : State) : Except Stop State :=
  if a ≠ s.params.burstAddr ∨ n ≠ Config.burstLen then refuse .notTheBurst
  else if busPermitted .burst s then
    match busBurst s with
    | .error e => .error e
    | .ok (r, _, t) => .ok (setRet (.burst r) t)
  else refuse .busNotPermitted

/-- `T_WRITE`: the two bytes `{1, ADDR}`, `DATA` (30_encoding.md R301). -/
def execTWrite (addr : Addr) (data : Byte) (s : State) : Host.Outcome State Fault Refusal :=
  toOutcome (issueWrite addr data s)

/-- `T_READ`: the byte `{0, ADDR}` (R302). -/
def execTRead (addr : Addr) (s : State) : Host.Outcome State Fault Refusal := toOutcome (issueRead addr s)

/-- `T_BURST`: the byte `{0, BURST_ADDR}`, twelve bytes back (R303). -/
def execTBurst (addr : Addr) (s : State) : Host.Outcome State Fault Refusal :=
  toOutcome (issueBurst addr Config.burstLen s)

/-- `BusWrite(a, v)` (R410). -/
def execBusWrite (a : Addr) (v : Byte) (s : State) : Host.Outcome State Fault Refusal := toOutcome (issueWrite a v s)

/-- `BusRead(a)` (R415). -/
def execBusRead (a : Addr) (s : State) : Host.Outcome State Fault Refusal := toOutcome (issueRead a s)

/-- `BusBurst(a, n)` (R420). -/
def execBusBurst (a : Addr) (n : Nat) (s : State) : Host.Outcome State Fault Refusal := toOutcome (issueBurst a n s)

end Sys2Proof.Machine
end

