-- ==== Sys2Proof/Machine/SensorDriver.lean ====
section
/-! DEFINITION. The SensorDriver operations (41_sensor_driver.md): the init command, the steps of the bring-up sequence, the
fatal fault, the capture and the mode switch. -/

namespace Sys2Proof.Machine

/-- Moves the sequencer to a step with index 0, keeping `SEQ_ATTEMPT`. -/
def gotoStep (st : SeqStep) (s : State) : State := { s with seqPc := ⟨st, 0, s.seqPc.attempt⟩ }

/-- Moves the sequencer to `(step, 0, 0)`. -/
def gotoFresh (st : SeqStep) (s : State) : State := { s with seqPc := ⟨st, 0, 0⟩ }

/-- The next entry of the script or list being replayed. -/
def nextEntry (s : State) : State := { s with seqPc := { s.seqPc with idx := s.seqPc.idx + 1 } }

/-- Moves the driver to a state. -/
def setDrv (d : DrvState) (s : State) : State := { s with drvState := d }

/-- The fatal bring-up fault (R462). -/
def fatalFault (s : State) : State :=
  let s := setDrv .failed (raiseEvent (.transportFaultInit s.seqPc) s)
  { s with seqPc := { s.seqPc with step := .fail } }

/-! ### Bring-up -/

/-- `Init` (R451), where its precondition holds. -/
def beginBringUp (s : State) : State := gotoFresh .wake (setDrv .resetting { s with degraded := false })

/-- The precondition of `Init` (R451). -/
def canInit (s : State) : Bool := s.drvState == .unpowered && s.seqPc.step == .idle

/-- Step `S_WAKE` (R452). -/
def seqWake (s : State) : State :=
  gotoFresh .ncsPulse (wait .sensor s.params.tWake { s with power := true })

/-- Step `S_NCS_PULSE` (R453): no byte is sent. -/
def seqNcsPulse (s : State) : State :=
  gotoFresh .resetPulse (setNcs true (wait .sensor s.params.tNcsPulse (setNcs false s)))

/-- The reset line takes a level. -/
def setNreset (l : Level) (s : State) : State := { s with nreset := l }

/-- Step `S_RESET_PULSE` (R454). -/
def seqResetPulse (s : State) : State :=
  gotoFresh .settle (setNreset true (wait .sensor s.params.tResetPulse (setNreset false s)))

/-- The end of `S_SETTLE` (R455): no gap is owed. -/
def settled (s : State) : State := gotoFresh .first (setDrv .programming { s with busLast := .none })

/-- Step `S_SETTLE` (R455). -/
def seqSettle (s : State) : State := settled (wait .sensor s.params.tResetSettle s)

/-- The stored words of a script (20_memory.md R200). -/
def scriptOf (p : Params) : ScriptId → List (BitVec 16)
  | .first => p.seqFirst
  | .repair => p.seqRepair
  | .close => p.seqClose
  | .mode m => p.modeTable m

/-- One entry of a script: its write, and on `ok` the next entry (R457). The answer says whether the write went through; after
a fault the driver has failed. -/
def replayEntry (a : Addr) (v : Byte) (s : State) : Bool × State :=
  match (busWrite a v s).1 with
  | .ok () => (true, nextEntry (busWrite a v s).2)
  | .fault => (false, fatalFault (busWrite a v s).2)

/-- The entries of a script from the current one on, each sent once, in order (R457). A word that is no script entry is
refused (30_encoding.md R307). -/
def replayWords : List (BitVec 16) → State → Except Stop (Bool × State)
  | [], s => .ok (true, s)
  | w :: ws, s =>
    match decodeScript w with
    | .ok (.script a v) =>
      if (replayEntry a v s).1 then replayWords ws (replayEntry a v s).2 else .ok (false, (replayEntry a v s).2)
    | .ok _ | .error _ => refuse .notAScriptEntry

/-- `Replay(S)`: while `SEQ_IDX` < k (R457). -/
def replayScript (script : List (BitVec 16)) (s : State) : Except Stop (Bool × State) :=
  replayWords (script.drop s.seqPc.idx) s

/-- `Replay(S)`, then `after` if no write faulted. -/
def replayThen (script : List (BitVec 16)) (after : State → State) (s : State) : Except Stop State :=
  match replayScript script s with
  | .error e => .error e
  | .ok (true, t) => .ok (after t)
  | .ok (false, t) => .ok t

/-- Step `S_FIRST` (R457). -/
def seqFirst (s : State) : Except Stop State := replayThen s.params.seqFirst (gotoFresh .verify) s

/-- The poll's budget is exhausted (R456): a recovered degradation, not an abort (60_exceptions.md R803). -/
def verifyExhausted (s : State) : State :=
  gotoStep .repair (raiseEvent (.verifyTimeout s.seqPc.attempt) { s with degraded := true })

/-- One more verification read has been done. -/
def nextAttempt (s : State) : State := { s with seqPc := { s.seqPc with attempt := s.seqPc.attempt + 1 } }

/-- The verification poll with `n` attempts left (R456). Each attempt waits `T_VERIFY` from the end of the previous
transaction, then reads; the read's own gap makes the wait the larger of the two. -/
def verifyPoll : Nat → State → Except Stop State
  | 0, s => .ok (verifyExhausted s)
  | n + 1, s =>
    match busRead s.params.verifyAddr (waitFrom .sensor (lastEnd s) Config.tVerify s) with
    | .error e => .error e
    | .ok (.fault, t) => .ok (fatalFault (nextAttempt t))
    | .ok (.ok b, t) =>
      if b = Config.verifyExpect then .ok (gotoStep .close (nextAttempt t)) else verifyPoll n (nextAttempt t)

/-- Step `S_VERIFY` (R456). -/
def seqVerify (s : State) : Except Stop State := verifyPoll (Config.verifyAttempts - s.seqPc.attempt) s

/-- Step `S_REPAIR` (R459). -/
def seqRepair (s : State) : Except Stop State := replayThen s.params.seqRepair (gotoStep .close) s

/-- The driver state after the closing script (R460). -/
def closed (s : State) : State := gotoStep .diag (setDrv (if s.degraded then .degraded else .verified) s)

/-- Step `S_CLOSE` (R460). -/
def seqClose (s : State) : Except Stop State := replayThen s.params.seqClose closed s

/-- Stores a diagnostic byte at `SEQ_IDX` (R458). -/
def storeDiag (b : Byte) (s : State) : State := { s with diag := s.diag.set s.seqPc.idx b }

/-- The diagnostic reads of the remaining addresses (R458). -/
def diagReads : List Addr → State → Except Stop State
  | [], s => .ok (gotoStep .mvalid s)
  | a :: rest, s =>
    match busRead a s with
    | .error e => .error e
    | .ok (.fault, t) => .ok (fatalFault t)
    | .ok (.ok b, t) => diagReads rest (nextEntry (storeDiag b t))

/-- Step `S_DIAG` (R458). -/
def seqDiag (s : State) : Except Stop State := diagReads (s.params.diagAddr.drop s.seqPc.idx) s

/-- The end of `S_MVALID` (R461). -/
def motionValid (s : State) : State := gotoStep .stream (setDrv .streaming s)

/-- Step `S_MVALID` (R461): the wait runs from the end of the last diagnostic read. -/
def seqMvalid (s : State) : State := motionValid (waitFrom .sensor (lastEnd s) s.params.tMotionValid s)

/-- The sequencer's next step of the bring-up (R450); at the other steps it has none to take. -/
def seqAdvance (s : State) : Except Stop State :=
  match s.seqPc.step with
  | .wake => .ok (seqWake s)
  | .ncsPulse => .ok (seqNcsPulse s)
  | .resetPulse => .ok (seqResetPulse s)
  | .settle => .ok (seqSettle s)
  | .first => seqFirst s
  | .verify => seqVerify s
  | .repair => seqRepair s
  | .close => seqClose s
  | .diag => seqDiag s
  | .mvalid => .ok (seqMvalid s)
  | .idle | .stream | .mode | .fail => .ok s

/-- `n` sequencer steps, one after the other. -/
def seqRun : Nat → State → Except Stop State
  | 0, s => .ok s
  | n + 1, s =>
    match seqAdvance s with
    | .error e => .error e
    | .ok t => seqRun n t

/-- The bring-up has ten steps from `S_WAKE` to `S_MVALID` (R450, R907); it ends in `S_STREAM` or `S_FAIL`, where further
steps do nothing. -/
def bringUp (s : State) : Except Stop State := seqRun 10 s

/-- A step run on its own, at its own `SEQ_STEP` only. -/
def atStep (st : SeqStep) (run : State → Except Stop State) (s : State) : Except Stop State :=
  if s.seqPc.step = st then run s else refuse .notAtStep

/-! ### Capture and mode switch -/

/-- `CaptureBurst()` (R465 to R468). -/
def captureBurst (s : State) : Except Stop (Option Sample × State) :=
  match busBurst s with
  | .error e => .error e
  | .ok (.fault, _, t) => .ok (none, raiseEvent .transportFaultCapture t)
  | .ok (.ok bytes, ts, t) => .ok (burstSample bytes ts, t)

/-- The precondition of a capture and of a mode switch (R465, R470). -/
def isStreaming (s : State) : Bool := s.drvState == .streaming && s.seqPc.step == .stream

/-- The mode is active (R470). -/
def setMode (m : OpMode) (s : State) : State := gotoStep .stream { s with mode := m }

/-- `ModeSwitch(m)` (R470, R472), where its precondition holds. -/
def switchMode (m : OpMode) (s : State) : Except Stop State :=
  replayThen (s.params.modeTable m) (setMode m) (gotoStep .mode s)

/-- The mode switch as a command at the sensor loop's sleep boundary: refused outside STREAMING, and after the loop has
stopped (R470, 47_stimulus.md R758, R759). It tests `RUN_SENSOR` and not `SHUTDOWN_REQ` (DESIGN CHOICE, log 30), and of two
grounds to refuse it reports the stopped loop (DESIGN CHOICE, log 31). -/
def modeCommand (m : OpMode) (s : State) : Except Stop State :=
  if s.runSensor = false then refuse (.loopStopped .sensor)
  else if isStreaming s then switchMode m s
  else refuse .notStreaming

/-! ### The instructions -/

/-- `Init` (R451). -/
def execInitCommand (s : State) : Host.Outcome State Fault Refusal :=
  toOutcome (if canInit s then .ok (beginBringUp s) else refuse .notUnpowered)

/-- `S_WAKE` (R452). -/
def execSWake (s : State) : Host.Outcome State Fault Refusal := toOutcome (atStep .wake (fun s => .ok (seqWake s)) s)

/-- `S_NCS_PULSE` (R453). -/
def execSNcsPulse (s : State) : Host.Outcome State Fault Refusal :=
  toOutcome (atStep .ncsPulse (fun s => .ok (seqNcsPulse s)) s)

/-- `S_RESET_PULSE` (R454). -/
def execSResetPulse (s : State) : Host.Outcome State Fault Refusal :=
  toOutcome (atStep .resetPulse (fun s => .ok (seqResetPulse s)) s)

/-- `S_SETTLE` (R455). -/
def execSSettle (s : State) : Host.Outcome State Fault Refusal :=
  toOutcome (atStep .settle (fun s => .ok (seqSettle s)) s)

/-- `Replay` of a script at the step that runs it; for the first script, the whole of `S_FIRST` (R457). -/
def execReplay (sc : ScriptId) (s : State) : Host.Outcome State Fault Refusal :=
  toOutcome <|
    match sc with
    | .first => atStep .first seqFirst s
    | .repair => atStep .repair (fun s => replayThen s.params.seqRepair id s) s
    | .close => atStep .close (fun s => replayThen s.params.seqClose id s) s
    | .mode m => atStep .mode (fun s => replayThen (s.params.modeTable m) id s) s

/-- `SCRIPT`: one entry replayed, at a step that replays scripts (30_encoding.md R307, 41_sensor_driver.md R457). On its own it
sends the word it is given, takes the place of the entry at `SEQ_IDX`, and after a fault makes no test of `SHUTDOWN_REQ` (DESIGN
CHOICE, log 33). -/
def execScript (addr : Addr) (value : Byte) (s : State) : Host.Outcome State Fault Refusal :=
  toOutcome (if busPermitted .write s then .ok (replayEntry addr value s).2 else refuse .busNotPermitted)

/-- `S_VERIFY` (R456). -/
def execSVerify (s : State) : Host.Outcome State Fault Refusal := toOutcome (atStep .verify seqVerify s)

/-- `S_REPAIR` (R459). -/
def execSRepair (s : State) : Host.Outcome State Fault Refusal := toOutcome (atStep .repair seqRepair s)

/-- `S_CLOSE` (R460). -/
def execSClose (s : State) : Host.Outcome State Fault Refusal := toOutcome (atStep .close seqClose s)

/-- `S_DIAG` (R458). -/
def execSDiag (s : State) : Host.Outcome State Fault Refusal := toOutcome (atStep .diag seqDiag s)

/-- `S_MVALID` (R461). -/
def execSMvalid (s : State) : Host.Outcome State Fault Refusal :=
  toOutcome (atStep .mvalid (fun s => .ok (seqMvalid s)) s)

/-- `FatalBringupFault` (R462): at a step in which a transport fault is fatal. -/
def execFatalBringupFault (s : State) : Host.Outcome State Fault Refusal :=
  toOutcome (if s.seqPc.step.faultIsFatal then .ok (fatalFault s) else refuse .notAtStep)

/-- `CaptureBurst()` (R465): its answer goes to the caller. On its own it does not test `RUN_SENSOR` (DESIGN CHOICE, log 32). -/
def execCaptureBurst (s : State) : Host.Outcome State Fault Refusal :=
  toOutcome <|
    if isStreaming s then
      match captureBurst s with
      | .error e => .error e
      | .ok (r, t) => .ok (setRet (.capture r) t)
    else refuse .notStreaming

/-- `ModeSwitch(m)` (R470). -/
def execModeSwitch (m : OpMode) (s : State) : Host.Outcome State Fault Refusal := toOutcome (modeCommand m s)

end Sys2Proof.Machine
end

