-- ==== Sys2Proof/Machine/PollLoop.lean ====
section
/-! DEFINITION. The task cycles (46_poll_loop.md): the sensor, button and scroll cycles with their sleep boundaries, the
button mask, and shutdown. -/

namespace Sys2Proof.Machine

/-! ### The sensor loop -/

/-- Step 1: `LOOP_START <- NOW` (R700). -/
def startCycle (s : State) : State := { s with loopStart := s.now }

/-- Step 3: a capture in STREAMING only; a sample is pushed and stays for the next cycle's drain (R702). -/
def capturePhase (s : State) : Except Stop State :=
  if isStreaming s then
    match captureBurst s with
    | .error e => .error e
    | .ok (none, t) => .ok t
    | .ok (some x, t) => pushSample x t
  else .ok s

/-- Steps 1 to 4 (R700 to R703). Step 4 is the end of the capture's own burst: its exit delay is kept by the next
transaction's gap. -/
def sensorWork (s : State) : Except Stop State :=
  match drainRing (yield .sensor (startCycle s)) with
  | .error e => .error e
  | .ok t => capturePhase (yield .sensor t)

/-- Step 5: sleep what remains of `T_PERIOD`; a cycle that overran goes on at once (R704). -/
def sensorSleep (s : State) : State :=
  let e := elapsedSince s.now s.loopStart
  if e < Config.tPeriod then wait .sensor (Config.tPeriod - e) s else s

/-- A sensor cycle with its sleep as given, then the sleep boundary (R700 to R705); other agents may act before step 5 and
before the boundary (20_memory.md R230). No cycle falls inside a bring-up or a mode switch (R706, 70_reset_and_hazards.md
R922). -/
def sensorCycleWith (sleep : State → State) (s : State) : Except Stop State :=
  if s.runSensor = false then refuse (.loopStopped .sensor)
  else if betweenCycles s.seqPc.step then
    match sensorWork s with
    | .error e => .error e
    | .ok t => .ok (sleepBoundary .sensor (yield .sensor (sleep (yield .sensor t))))
  else refuse .sensorBusy

/-- The sensor task goes on with its program: a sensor cycle at its sleep boundary, a bring-up step while one is to do (R706). A
bring-up in progress is not interrupted by shutdown (R730); after its last step the task is at its sleep boundary. -/
def sensorTask (s : State) : Except Stop State :=
  if s.runSensor = false then refuse (.loopStopped .sensor)
  else if s.sensorPos ≠ .idle then refuse .sensorBusy
  else if betweenCycles s.seqPc.step then sensorCycleWith sensorSleep s
  else
    match seqAdvance s with
    | .error e => .error e
    | .ok t => .ok (if betweenCycles t.seqPc.step then sleepBoundary .sensor t else t)

/-! ### The button task -/

/-- The call of a cycle that starts, or goes on, at a rule step, run to its end. -/
def buttonCall : ButtonStep → State → State
  | .confirm a, s => auxConfirm a s
  | .latchTake b, s => latchPoll b s
  | .latchReport _, s => reportButtons s
  | .latchRelease b, s => latchRelease b s
  | .auxTake a, s => auxPoll a s
  | .auxReport _, s => reportButtons s

/-- Calls run one after the other, with handlers free to run after each (R710). -/
def buttonCalls : List ButtonStep → State → State
  | [], s => s
  | st :: rest, s => buttonCalls rest (yield .button (buttonCall st s))

/-- What is left of the button task's cycle; at a sleep boundary, a whole cycle (log 13). -/
def buttonToDo (s : State) : List ButtonStep := if s.buttonK = [] then buttonCycleSteps else s.buttonK

/-- The button task is between cycles and not asleep. -/
def buttonIdle (s : State) : State := { s with buttonK := [], buttonSleep := none }

/-- A button cycle with its sleep as given, then the sleep boundary (R710). A sleep in progress ends without that sleep's test of
`SHUTDOWN_REQ`, and the cycle runs (DESIGN CHOICE, log 13). -/
def buttonCycleWith (sleep : State → State) (s : State) : Except Stop State :=
  if s.runButton = false then refuse (.loopStopped .button)
  else .ok (sleepBoundary .button (sleep (buttonCalls (buttonToDo s) (buttonIdle s))))

/-! ### The scroll task -/

/-- The rest of a scroll cycle from a rule step on. -/
def scrollCall : ScrollStep → State → State
  | .take, s => scrollPoll s
  | .adjust ev d, s => scrollFinish ev d s
  | .report d, s => reportWheel d s

/-- Rule steps run to the end of the cycle. -/
def scrollCalls : List ScrollStep → State → State
  | [], s => s
  | st :: rest, s => scrollCalls rest (scrollCall st s)

/-- What is left of the scroll task's cycle; at a sleep boundary, a whole cycle (log 13). -/
def scrollToDo (s : State) : List ScrollStep := if s.scrollK = [] then [.take] else s.scrollK

/-- The scroll task is between cycles and not asleep. -/
def scrollIdle (s : State) : State := { s with scrollK := [], scrollSleep := none }

/-- A scroll cycle with its sleep as given, then the sleep boundary (R720); a sleep in progress as in `buttonCycleWith` (DESIGN
CHOICE, log 13). -/
def scrollCycleWith (sleep : State → State) (s : State) : Except Stop State :=
  if s.runScroll = false then refuse (.loopStopped .scroll)
  else .ok (sleepBoundary .scroll (sleep (scrollCalls (scrollToDo s) (scrollIdle s))))

/-! ### The instructions -/

/-- `SensorCycle`: steps 1 to 5 and the sleep boundary (R700 to R705). -/
def execSensorCycle (s : State) : Host.Outcome State Fault Refusal := toOutcome (sensorCycleWith sensorSleep s)

/-- `ButtonCycle`: the calls, the sleep of `T_BTASK`, the sleep boundary (R710, R711). -/
def execButtonCycle (s : State) : Host.Outcome State Fault Refusal :=
  toOutcome (buttonCycleWith (wait .button Config.tBtask) s)

/-- `ButtonMask()`: its value goes to the caller (R712). -/
def execButtonMask (s : State) : Host.Outcome State Fault Refusal := .next (setRet (.mask (buttonMask s)) s)

/-- `ScrollCycle`: `ScrollPoll`, the sleep of `T_STASK`, the sleep boundary (R720). -/
def execScrollCycle (s : State) : Host.Outcome State Fault Refusal :=
  toOutcome (scrollCycleWith (wait .scroll Config.tStask) s)

/-- `Shutdown`: the test of `SHUTDOWN_REQ` a loop makes at its sleep boundary (R730). -/
def execShutdown (l : Loop) (s : State) : Host.Outcome State Fault Refusal := .next (sleepBoundary l s)

end Sys2Proof.Machine
end

