-- ==== Sys2Proof/Machine/SensorTask.lean ====
section
/-! DEFINITION. The sensor task one rule step at a time (20_memory.md R230, 60_exceptions.md R840): every change of a line, every
transfer, every end of a wait and every marked step of its rules is a step of its own, between which any other agent may act.
Time passes only by the environment's steps (R850). `State.sensorPos` says which step is next (log 5). -/

namespace Sys2Proof.Machine

/-- The task goes on at a position. -/
def goTo (p : SensorPos) (s : State) : State := { s with sensorPos := p }

/-! ### Waits -/

/-- The end of a wait of at least `T` µs since `t0` (40_register_bus.md R426, 60_exceptions.md R850): once they have passed, and
what the next slack adds, the task goes on at a position; before that it takes no step (log 6, log 7). -/
def endWait (t0 : Time) (T : Nat) (next : SensorPos) (s : State) : State :=
  if elapsedSince s.now t0 < T + (nextSlack s).toNat then s else goTo next (dropSlack s)

/-- `BUS_CORRUPT <- 1` if a wait was too short (40_register_bus.md R428). -/
def corruptIf (short : Bool) (s : State) : State := { s with busCorrupt := s.busCorrupt || short }

/-- The end of a wait of a transaction, which a negative slack may place below its minimum (R428). -/
def endBusWait (t0 : Time) (T : Nat) (next : SensorPos) (s : State) : State :=
  if elapsedSince s.now t0 < ((T : Int) + nextSlack s).toNat then s
  else goTo next (corruptIf (decide (elapsedSince s.now t0 < T)) (dropSlack s))

/-- How long the wait of a timed sequencer step is (41_sensor_driver.md R452 to R455, R461). -/
def timedWait (p : Params) : SeqStep → Nat
  | .wake => p.tWake
  | .ncsPulse => p.tNcsPulse
  | .resetPulse => p.tResetPulse
  | .settle => p.tResetSettle
  | .mvalid => p.tMotionValid
  | .idle | .first | .verify | .repair | .close | .diag | .stream | .mode | .fail => 0

/-- What follows that wait: the end of a pulse, or the step's last assignments. -/
def afterTimed : SeqStep → SensorPos
  | .ncsPulse | .resetPulse => .pulseEnd
  | .idle | .wake | .settle | .first | .verify | .repair | .close | .diag | .mvalid | .stream | .mode | .fail => .leave

/-! ### Transactions -/

/-- The kind of a transaction, as `BUS_LAST` keeps it. -/
def callKind : BusCall → BusKind
  | .entry _ _ _ => .write
  | .verify | .diag _ => .read
  | .capture => .burst

/-- The bytes a transaction sends (40_register_bus.md R410, R415, R420). -/
def callBytes (p : Params) : BusCall → List Byte
  | .entry _ a v => [commandByte Config.dirWrite a, v]
  | .verify => [commandByte (!Config.dirWrite) p.verifyAddr]
  | .diag a => [commandByte (!Config.dirWrite) a]
  | .capture => [commandByte (!Config.dirWrite) p.burstAddr]

/-- The wait between the command byte and the sensor's first byte (R415, R420); a write has none. -/
def callDelay (p : Params) : BusCall → Nat
  | .entry _ _ _ => 0
  | .verify | .diag _ => p.tSrad
  | .capture => p.tSradMotbr

/-- A transaction whose gap is waited for next; a single-byte read of `BURST_ADDR` is never issued (30_encoding.md R308). -/
def openCall (c : BusCall) (s : State) : Except Stop State :=
  if (c = .verify ∧ s.params.verifyAddr = s.params.burstAddr) ∨ c = .diag s.params.burstAddr then refuse .readOfBurstAddr
  else .ok (goTo (.bus c (.gap (lastEnd s))) s)

/-- The bytes of an answer to a write. -/
def writeReply : Answer Unit → Answer (List Byte)
  | .ok () => .ok []
  | .fault => .fault

/-- The bytes are sent: a write is answered with them, a read after its delay (R410, R415, R420). -/
def sendCall (c : BusCall) (ts : Time) (s : State) : State :=
  let t := sendBytes (callBytes s.params c) s
  match c with
  | .entry _ _ _ => goTo (.bus c (.release ts (writeReply (askWrite t).1))) (askWrite t).2
  | .verify | .diag _ | .capture => goTo (.bus c (.delay ts s.now)) t

/-- The sensor's answer to a read or to a burst. -/
def answerCall (c : BusCall) (ts : Time) (s : State) : Except Stop State :=
  match c with
  | .entry _ _ _ => .ok (goTo (.bus c (.release ts (writeReply (askWrite s).1))) (askWrite s).2)
  | .verify | .diag _ =>
    match askByte s with
    | .error e => .error e
    | .ok (.ok b, t) => .ok (goTo (.bus c (.release ts (.ok [b]))) t)
    | .ok (.fault, t) => .ok (goTo (.bus c (.release ts .fault)) t)
  | .capture =>
    match askBurst s with
    | .error e => .error e
    | .ok (r, t) => .ok (goTo (.bus c (.release ts r)) t)

/-! ### The callers -/

/-- What follows a script: the last assignments of the sequencer step or of the mode switch that replays it. -/
def afterScript : ScriptId → SensorPos
  | .first | .repair | .close => .leave
  | .mode m => .switched m

/-- The loop of `Replay` (41_sensor_driver.md R457): the next entry's write, or what follows the script. -/
def nextWrite (sc : ScriptId) (s : State) : Except Stop State :=
  match (scriptOf s.params sc).drop s.seqPc.idx with
  | [] => .ok (goTo (afterScript sc) s)
  | w :: _ =>
    match decodeScript w with
    | .ok (.script a v) => openCall (.entry sc a v) s
    | .ok _ | .error _ => refuse .notAScriptEntry

/-- The loop of the verification poll (R456): the next attempt's wait, or its exhaustion. -/
def nextPoll (s : State) : State :=
  if s.seqPc.attempt < Config.verifyAttempts then goTo (.pollWait (lastEnd s)) s else goTo .idle (verifyExhausted s)

/-- The loop of the diagnostic reads (R458): the next address's read, or the end of the step. -/
def nextDiag (s : State) : Except Stop State :=
  match s.params.diagAddr.drop s.seqPc.idx with
  | [] => .ok (goTo .leave s)
  | a :: _ => openCall (.diag a) s

/-- A fatal fault ends the bring-up, which brings the task to its sleep boundary (R462, 46_poll_loop.md R730); after a mode
switch the task goes on with its next cycle (R705). -/
def failCall (sc : Option ScriptId) (s : State) : State :=
  goTo (match sc with | some (.mode _) => .idle | some .first | some .repair | some .close | none => .boundary) (fatalFault s)

/-- What the caller of a transaction does with its answer (41_sensor_driver.md R456, R457, R458, R465). -/
def afterCall (c : BusCall) (ts : Time) (r : Answer (List Byte)) (s : State) : Except Stop State :=
  match c, r with
  | .entry sc _ _, .ok _ => nextWrite sc (nextEntry s)
  | .entry sc _ _, .fault => .ok (failCall (some sc) s)
  | .verify, .ok bytes =>
    if bytes = [Config.verifyExpect] then .ok (goTo .idle (gotoStep .close (nextAttempt s)))
    else .ok (nextPoll (nextAttempt s))
  | .verify, .fault => .ok (failCall none (nextAttempt s))
  | .diag _, .ok bytes => nextDiag (nextEntry (storeDiag (bytes.headD 0) s))
  | .diag _, .fault => .ok (failCall none s)
  | .capture, .ok bytes =>
    match burstSample bytes ts with
    | none => .ok (goTo .sleep s)
    | some x => .ok (goTo (.push x) s)
  | .capture, .fault => .ok (goTo .sleep (raiseEvent .transportFaultCapture s))

/-- One step of a transaction (20_memory.md R230). -/
def callStep (c : BusCall) (ph : BusPhase) (s : State) : Except Stop State :=
  match ph with
  | .gap t0 => .ok (endBusWait t0 (gapNeeded s.params s.busLast) (.bus c .assert) s)
  | .assert => .ok (goTo (.bus c (.settle s.now)) (setNcs false s))
  | .settle ts => .ok (endBusWait ts s.params.tNcsSclk (.bus c (.send ts)) s)
  | .send ts => .ok (sendCall c ts s)
  | .delay ts t0 => .ok (endBusWait t0 (callDelay s.params c) (.bus c (.answer ts)) s)
  | .answer ts => answerCall c ts s
  | .release ts r => .ok (goTo (.bus c (.returned ts r)) (endTransaction (callKind c) s))
  | .returned ts r => afterCall c ts r s

/-! ### The task -/

/-- A step of `EmitMotion` (42_ring_buffer.md R506): one report of what is left. -/
def emitStep (rx ry : Int) (s : State) : State :=
  let cx := clamp rx (-Config.reportClamp) Config.reportClamp
  let cy := clamp ry (-Config.reportClamp) Config.reportClamp
  goTo (if rx - cx = 0 ∧ ry - cy = 0 then .advance else .emit (rx - cx) (ry - cy)) (emitReport (motionReport cx cy) s)

/-- The loop of `Drain` (R505): the first report of the next slot, or the end of the drain. -/
def drainStep (s : State) : Except Stop State :=
  if s.rbR = s.rbW then .ok (goTo .capture s)
  else
    match readSlot s s.rbR with
    | .error e => .error e
    | .ok x => .ok (emitStep x.dx.toInt x.dy.toInt s)

/-- A captured sample is pushed. -/
def pushStep (x : Sample) (s : State) : Except Stop State :=
  match pushSample x s with
  | .error e => .error e
  | .ok t => .ok (goTo .sleep t)

/-- Step 5 of a cycle: its sleep begins; a cycle that overran is at its boundary (46_poll_loop.md R704). -/
def sleepStep (s : State) : State :=
  let e := elapsedSince s.now s.loopStart
  goTo (if e < Config.tPeriod then .sleeping s.now (Config.tPeriod - e) else .boundary) s

/-- The end of a pulse: its line goes back to 1 (41_sensor_driver.md R453, R454). -/
def pulseEndStep (s : State) : State :=
  goTo .leave (if s.seqPc.step = .resetPulse then setNreset true s else setNcs true s)

/-- The last assignments of a sequencer step (R452 to R461). After `S_MVALID` the task is at its sleep boundary (46_poll_loop.md
R730). -/
def leaveStep (s : State) : State :=
  match s.seqPc.step with
  | .wake => goTo .idle (gotoFresh .ncsPulse s)
  | .ncsPulse => goTo .idle (gotoFresh .resetPulse s)
  | .resetPulse => goTo .idle (gotoFresh .settle s)
  | .settle => goTo .idle (settled s)
  | .first => goTo .idle (gotoFresh .verify s)
  | .repair => goTo .idle (gotoStep .close s)
  | .close => goTo .idle (closed s)
  | .diag => goTo .idle (gotoStep .mvalid s)
  | .mvalid => goTo .boundary (motionValid s)
  | .idle | .verify | .stream | .mode | .fail => goTo .idle s

/-- The first step of what the task does next: its next sequencer step in a bring-up, a cycle at its sleep boundary
(46_poll_loop.md R706). The boundary's test has been made; the task does not test again (DESIGN CHOICE, log 28). -/
def beginStep (s : State) : Except Stop State :=
  match s.seqPc.step with
  | .wake => .ok (goTo (.timed s.now) { s with power := true })
  | .ncsPulse => .ok (goTo (.timed s.now) (setNcs false s))
  | .resetPulse => .ok (goTo (.timed s.now) (setNreset false s))
  | .settle => .ok (goTo (.timed s.now) s)
  | .first => nextWrite .first s
  | .verify => .ok (nextPoll s)
  | .repair => nextWrite .repair s
  | .close => nextWrite .close s
  | .diag => nextDiag s
  | .mvalid => .ok (goTo (.timed (lastEnd s)) s)
  | .idle | .stream | .fail => .ok (goTo .drain (startCycle s))
  | .mode => refuse .sensorBusy

/-- One rule step of the sensor task, unless its loop has stopped (46_poll_loop.md R700 to R706, R730). -/
def sensorStep (s : State) : Except Stop State :=
  if s.runSensor = false then refuse (.loopStopped .sensor)
  else
    match s.sensorPos with
    | .idle => beginStep s
    | .timed t0 => .ok (endWait t0 (timedWait s.params s.seqPc.step) (afterTimed s.seqPc.step) s)
    | .pulseEnd => .ok (pulseEndStep s)
    | .leave => .ok (leaveStep s)
    | .switched m => .ok (goTo .idle (setMode m s))
    | .pollWait t0 =>
      if elapsedSince s.now t0 < Config.tVerify + (nextSlack s).toNat then .ok s else openCall .verify (dropSlack s)
    | .bus c ph => callStep c ph s
    | .drain => drainStep s
    | .emit rx ry => .ok (emitStep rx ry s)
    | .advance => .ok (goTo .drain (advanceRead s))
    | .capture => if isStreaming s then openCall .capture s else .ok (goTo .sleep s)
    | .push x => pushStep x s
    | .sleep => .ok (sleepStep s)
    | .sleeping t0 T => .ok (endWait t0 T .boundary s)
    | .boundary => .ok (goTo .idle (sleepBoundary .sensor s))

/-- The mode command taken at the sleep boundary, its replay left to the task's own steps (41_sensor_driver.md R470). It tests
`RUN_SENSOR` and not `SHUTDOWN_REQ` (DESIGN CHOICE, log 30). -/
def startMode (m : OpMode) (s : State) : Except Stop State :=
  if s.runSensor = false then refuse (.loopStopped .sensor)
  else if isStreaming s then nextWrite (.mode m) (gotoStep .mode s)
  else refuse .notStreaming

/-- The instructions that are operations of the sensor task, or use its ring (10_state.md R171, R172): the task takes none while
it stands inside another one (20_memory.md R211, 40_register_bus.md R400). -/
def sensorOperation : Instr → Bool
  | .tWrite _ _ | .tRead _ | .tBurst _ | .script _ _ | .scycle | .initStim | .mode _ | .pusht _ _ | .draint
  | .busWrite _ _ | .busRead _ | .busBurst _ _ | .initCommand | .sWake | .sNcsPulse | .sResetPulse | .sSettle | .replay _
  | .sVerify | .sRepair | .sClose | .sDiag | .sMvalid | .fatalBringupFault | .captureBurst | .modeSwitch _ | .push _
  | .merge | .drain | .emitMotion _ | .sensorCycle => true
  | .endProgram | .pin _ _ | .isr _ | .tick _ | .btask | .stask | .shut | .reserved _ | .tickms _ | .mainEdge _
  | .latchPoll _ | .auxEdge _ | .auxConfirm _ | .auxPoll _ | .scrollEdgeA | .scrollEdgeB | .speedAdjust _ | .scrollPoll
  | .buttonCycle | .buttonMask | .scrollCycle | .shutdown _ | .handlerEntry _ | .handlerReturn | .raise _ | .emit _ => false

/-- Whether an instruction has to wait for the sensor task to end what it is doing. -/
def sensorInTheWay (i : Instr) (s : State) : Bool := sensorOperation i && s.sensorPos != .idle

end Sys2Proof.Machine
end

