-- ==== Sys2Proof/Machine/Stimulus.lean ====
section
/-! DEFINITION. The stimulus words (47_stimulus.md). -/

namespace Sys2Proof.Machine

/-- The program ends. -/
def endOfProgram (s : State) : State := { s with ended := true }

/-- The environment asks for shutdown. -/
def requestShutdown (s : State) : State := { s with shutdownReq := true }

/-- `END` (R750): loops and flags stay as they are. -/
def execEndProgram (s : State) : Host.Outcome State Fault Refusal := .next (endOfProgram s)

/-- `PIN p, l` (R751). -/
def execPin (p : Pin) (l : Level) (s : State) : Host.Outcome State Fault Refusal := .next (drivePin p l s)

/-- A handler run now, refused when nothing is pending (R752). -/
def dispatch (p : Pin) (s : State) : Except Stop State :=
  if pending s p then .ok (handlerEntry p s) else refuse (.irqNotPending p)

/-- `ISR p` (R752). -/
def execIsr (p : Pin) (s : State) : Host.Outcome State Fault Refusal := toOutcome (dispatch p s)

/-- `TICK n` (R753). -/
def execTick (n : BitVec 12) (s : State) : Host.Outcome State Fault Refusal := .next (advance n.toNat s)

/-- `BTASK` (R754): the runner's sleep takes no time (R763). -/
def execBtask (s : State) : Host.Outcome State Fault Refusal := toOutcome (buttonCycleWith id s)

/-- `STASK` (R755). -/
def execStask (s : State) : Host.Outcome State Fault Refusal := toOutcome (scrollCycleWith id s)

/-- `SCYCLE` (R756). -/
def execScycle (s : State) : Host.Outcome State Fault Refusal := toOutcome (sensorCycleWith id s)

/-- The init command, and the whole bring-up; then the sleep boundary it ends at (R757, 46_poll_loop.md R706, R730). It tests
`RUN_SENSOR` and not `SHUTDOWN_REQ` (DESIGN CHOICE, log 30), and of two grounds to refuse it reports the stopped loop (DESIGN
CHOICE, log 31). -/
def initAll (s : State) : Except Stop State :=
  if s.runSensor = false then refuse (.loopStopped .sensor)
  else if canInit s then
    match bringUp (beginBringUp s) with
    | .error e => .error e
    | .ok t => .ok (sleepBoundary .sensor t)
  else refuse .notUnpowered

/-- `INIT` (R757). -/
def execInitStim (s : State) : Host.Outcome State Fault Refusal := toOutcome (initAll s)

/-- `MODE m` (R758). -/
def execMode (m : OpMode) (s : State) : Host.Outcome State Fault Refusal := toOutcome (modeCommand m s)

/-- The sleep boundary of a loop if it stands there. -/
def boundaryIf (there : Bool) (l : Loop) (s : State) : State := if there then sleepBoundary l s else s

/-- `SHUT` (R759): `SHUTDOWN_REQ <- 1`, and every loop that stands at its sleep boundary stops (46_poll_loop.md R730). Between
stimuli every loop does; a task that the scheduler left inside its cycle, and a bring-up in progress, stop at the end of it;
a button or scroll task in its sleep stands at its boundary, and a sensor task that has come to its boundary but not made its
test there makes it by its own next step, not by this word (DESIGN CHOICE, log 13). -/
def execShut (s : State) : Host.Outcome State Fault Refusal :=
  .next (boundaryIf (s.scrollK = []) .scroll (boundaryIf (s.buttonK = []) .button
    (boundaryIf (sensorAtBoundary s) .sensor (requestShutdown s))))

/-- `PUSHT dx, dy` (R760): `Push(sext_16(dx), sext_16(dy), NOW)`. -/
def execPusht (dx dy : BitVec 6) (s : State) : Host.Outcome State Fault Refusal :=
  toOutcome (pushSample ⟨dx.signExtend 16, dy.signExtend 16, s.now⟩ s)

/-- `DRAINT` (R761). -/
def execDraint (s : State) : Host.Outcome State Fault Refusal := toOutcome (drainRing s)

/-- A word of the reserved classes is refused, whatever its other bits (R762). -/
def execReserved (_w : BitVec 14) (_s : State) : Host.Outcome State Fault Refusal := .refused .reservedClass

/-- `TICKMS k`: `k` copies of `TICK 1000` (30_encoding.md R344). -/
def execTickms : Nat → State → Host.Outcome State Fault Refusal
  | 0, s => .next s
  | k + 1, s => execTickms k (advance 1000 s)

end Sys2Proof.Machine
end

