-- ==== Sys2Proof/Machine/Events.lean ====
section
/-! DEFINITION. Events, handler entry and return, and the report sink as operations of their own (60_exceptions.md), and the
choices of the scheduler. -/

namespace Sys2Proof.Machine

/-- `HandlerEntry` of a pin (R820): possible only while the pin's interrupt is pending. -/
def execHandlerEntry (p : Pin) (s : State) : Host.Outcome State Fault Refusal := toOutcome (dispatch p s)

/-- `HandlerReturn` (R823). -/
def execHandlerReturn (s : State) : Host.Outcome State Fault Refusal := .next (handlerReturn s)

/-- `raise E(info)` (R801). -/
def execRaise (e : Event) (s : State) : Host.Outcome State Fault Refusal := .next (raiseEvent e s)

/-- `emit(r)` (R860). -/
def execEmit (r : Report) (s : State) : Host.Outcome State Fault Refusal := .next (emitReport r s)

/-- The init command taken at the sleep boundary: the bring-up begins, and its steps are the sensor task's own (R852,
41_sensor_driver.md R451). It tests `RUN_SENSOR` and not `SHUTDOWN_REQ` (DESIGN CHOICE, log 30), and of two grounds to refuse
it reports the stopped loop (DESIGN CHOICE, log 31). -/
def startInit (s : State) : Except Stop State :=
  if s.runSensor = false then refuse (.loopStopped .sensor)
  else if canInit s then .ok (beginBringUp s)
  else refuse .notUnpowered

/-- A command of the board layer, taken by the running sensor task at its sleep boundary and refused inside an operation
(R852). -/
def boardCommand (c : BoardCommand) (s : State) : Except Stop State :=
  if s.sensorPos ≠ .idle then refuse .sensorBusy
  else
    match c with
    | .init => startInit s
    | .mode m => modeCommand m s
    | .startMode m => startMode m s

end Sys2Proof.Machine
end

