-- ==== Sys2Proof/Machine/Fetch.lean ====
section
/-! DEFINITION. Fetching the next item of the agenda, and what an item that is no instruction does. The step of Step.lean only
calls these. -/

namespace Sys2Proof.Machine

/-- The next item, unless the program has ended (47_stimulus.md R750, R765). -/
def fetchItem (s : State) : Option Item := if s.ended then none else s.agenda.head?

/-- The item has been run: the next one is at the next index. -/
def finishItem (s : State) : State := { s with agenda := s.agenda.tail, pos := s.pos + 1 }

/-- The state after an item that answered a next state; a stop leaves no state (R766). -/
def finishOutcome : Host.Outcome State Fault Refusal → Host.Outcome State Fault Refusal
  | .next t => .next (finishItem t)
  | .fault f => .fault f
  | .refused r => .refused r

/-- The instruction of some bits, under the parameters of the state (30_encoding.md R304, R343). -/
def decodeCode (s : State) (c : Code) : Except DecodeError Instr := decode s.params.burstAddr c

/-- A choice of the scheduler: a board command, the sensor task, or a step of another agent (60_exceptions.md R840, R852). -/
def boardItem (c : BoardCommand) (s : State) : Host.Outcome State Fault Refusal := toOutcome (boardCommand c s)

/-- The sensor task goes on. -/
def sensorItem (s : State) : Host.Outcome State Fault Refusal := toOutcome (sensorTask s)

/-- The sensor task takes one rule step. -/
def sensorStepItem (s : State) : Host.Outcome State Fault Refusal := toOutcome (sensorStep s)

/-- A step of another agent. -/
def actItem (a : Act) (s : State) : Host.Outcome State Fault Refusal := .next (actStep .environment a s)

/-- A code placed as the next item, in a program that has not ended. -/
def placeCode (c : Code) (s : State) : State := { s with agenda := .code c :: s.agenda.tail, ended := false }

/-- The start state of the stimulus runner: reset, with the three inputs a program states, and the program (R765). A parameter
set that a model must refuse is refused (20_memory.md R201, 30_encoding.md R307). -/
def startState (p : Params) (pins : PerPin Level) (now : Time) (oracle : List ReadAnswer) (program : List (BitVec 16)) :
    Except ParamError State :=
  match p.refusal with
  | some e => .error e
  | none =>
    .ok { State.resetWith p with
      pins := pins, now := now, oracle := oracle, agenda := program.map fun w => .code (.stim w) }

end Sys2Proof.Machine
end

