-- ==== Sys2Proof/Machine/Dispatch.lean ====
section
/-! DEFINITION. The dispatch of every instruction to its meaning. -/

namespace Sys2Proof.Machine

/-- The meaning of an instruction. -/
def exec (i : Instr) (s : State) : Host.Outcome State Fault Refusal :=
  match i with
  | .tWrite addr data => Sys2Proof.Machine.execTWrite addr data s
  | .tRead addr => Sys2Proof.Machine.execTRead addr s
  | .tBurst addr => Sys2Proof.Machine.execTBurst addr s
  | .script addr value => Sys2Proof.Machine.execScript addr value s
  | .endProgram => Sys2Proof.Machine.execEndProgram s
  | .pin p l => Sys2Proof.Machine.execPin p l s
  | .isr p => Sys2Proof.Machine.execIsr p s
  | .tick n => Sys2Proof.Machine.execTick n s
  | .btask => Sys2Proof.Machine.execBtask s
  | .stask => Sys2Proof.Machine.execStask s
  | .scycle => Sys2Proof.Machine.execScycle s
  | .initStim => Sys2Proof.Machine.execInitStim s
  | .mode m => Sys2Proof.Machine.execMode m s
  | .shut => Sys2Proof.Machine.execShut s
  | .pusht dx dy => Sys2Proof.Machine.execPusht dx dy s
  | .draint => Sys2Proof.Machine.execDraint s
  | .reserved w => Sys2Proof.Machine.execReserved w s
  | .tickms k => Sys2Proof.Machine.execTickms k s
  | .busWrite a v => Sys2Proof.Machine.execBusWrite a v s
  | .busRead a => Sys2Proof.Machine.execBusRead a s
  | .busBurst a n => Sys2Proof.Machine.execBusBurst a n s
  | .initCommand => Sys2Proof.Machine.execInitCommand s
  | .sWake => Sys2Proof.Machine.execSWake s
  | .sNcsPulse => Sys2Proof.Machine.execSNcsPulse s
  | .sResetPulse => Sys2Proof.Machine.execSResetPulse s
  | .sSettle => Sys2Proof.Machine.execSSettle s
  | .replay sc => Sys2Proof.Machine.execReplay sc s
  | .sVerify => Sys2Proof.Machine.execSVerify s
  | .sRepair => Sys2Proof.Machine.execSRepair s
  | .sClose => Sys2Proof.Machine.execSClose s
  | .sDiag => Sys2Proof.Machine.execSDiag s
  | .sMvalid => Sys2Proof.Machine.execSMvalid s
  | .fatalBringupFault => Sys2Proof.Machine.execFatalBringupFault s
  | .captureBurst => Sys2Proof.Machine.execCaptureBurst s
  | .modeSwitch m => Sys2Proof.Machine.execModeSwitch m s
  | .push x => Sys2Proof.Machine.execPush x s
  | .merge => Sys2Proof.Machine.execMerge s
  | .drain => Sys2Proof.Machine.execDrain s
  | .emitMotion x => Sys2Proof.Machine.execEmitMotion x s
  | .mainEdge b => Sys2Proof.Machine.execMainEdge b s
  | .latchPoll b => Sys2Proof.Machine.execLatchPoll b s
  | .auxEdge a => Sys2Proof.Machine.execAuxEdge a s
  | .auxConfirm a => Sys2Proof.Machine.execAuxConfirm a s
  | .auxPoll a => Sys2Proof.Machine.execAuxPoll a s
  | .scrollEdgeA => Sys2Proof.Machine.execScrollEdgeA s
  | .scrollEdgeB => Sys2Proof.Machine.execScrollEdgeB s
  | .speedAdjust ev => Sys2Proof.Machine.execSpeedAdjust ev s
  | .scrollPoll => Sys2Proof.Machine.execScrollPoll s
  | .sensorCycle => Sys2Proof.Machine.execSensorCycle s
  | .buttonCycle => Sys2Proof.Machine.execButtonCycle s
  | .buttonMask => Sys2Proof.Machine.execButtonMask s
  | .scrollCycle => Sys2Proof.Machine.execScrollCycle s
  | .shutdown l => Sys2Proof.Machine.execShutdown l s
  | .handlerEntry p => Sys2Proof.Machine.execHandlerEntry p s
  | .handlerReturn => Sys2Proof.Machine.execHandlerReturn s
  | .raise e => Sys2Proof.Machine.execRaise e s
  | .emit r => Sys2Proof.Machine.execEmit r s

end Sys2Proof.Machine
end

