-- ==== Sys2Proof/Machine/Step.lean ====
section
/-! DEFINITION. One step of the machine: the next item of the agenda is run. -/

namespace Sys2Proof.Machine

/-- One step: fetch the next item, run it, go on to the item after it. Bits are decoded in their space and their instruction
run; bits that are no instruction are refused by name (47_stimulus.md R762, R765, R766), and so is an operation of the sensor
task while the task stands inside another one (20_memory.md R211). -/
def step (s : State) : Host.Outcome State Fault Refusal :=
  match fetchItem s with
  | none => .refused .programEnded
  | some (.code c) =>
    match decodeCode s c with
    | .error e => .refused (.illegalCode e)
    | .ok i => if sensorInTheWay i s then .refused .sensorBusy else finishOutcome (exec i s)
  | some (.board c) => finishOutcome (boardItem c s)
  | some .sensor => finishOutcome (sensorItem s)
  | some .sensorStep => finishOutcome (sensorStepItem s)
  | some (.act a) => finishOutcome (actItem a s)

/-- The state with an instruction, given by the bits of its opcode-table row, placed as the next item of the agenda. -/
def State.withFetchWord (s : State) (nbits w : Nat) : State :=
  match tableCode nbits w with
  | none => s
  | some c => placeCode c s

end Sys2Proof.Machine
end

