-- ==== Sys2Proof/Safety.lean ====
section
/-! DEFINITION. What counts as a safe state and a safe run of the IAB, and the vocabulary that statements about it use. -/

namespace Sys2Proof.Safety

open Sys2Proof Sys2Proof.Machine

/-! ### Schedules -/

/-- No other agent acts inside an operation, and every wait takes exactly its minimum, as in the runner (47_stimulus.md
R763). -/
def ExactSchedule (s : State) : Prop := s.interludes = [] ∧ s.slacks = []

/-- The runner's schedule and oracle: exact, and every write answers `ok` (R763, R764). -/
def RunnerSchedule (s : State) : Prop := ExactSchedule s ∧ s.writeOracle = []

/-- The button task stands at its sleep boundary, not asleep; so it does between stimuli. -/
def ButtonAtBoundary (s : State) : Prop := s.buttonK = [] ∧ s.buttonSleep = none

/-- The scroll task stands at its sleep boundary, not asleep. -/
def ScrollAtBoundary (s : State) : Prop := s.scrollK = [] ∧ s.scrollSleep = none

/-- The sensor task stands at its sleep boundary, in no bring-up; so it does between stimuli. -/
def SensorAtBoundary (s : State) : Prop := s.sensorPos = .idle ∧ s.seqPc.step ∈ [.idle, .stream, .fail]

/-- A run has ended when every loop has stopped (46_poll_loop.md R731). -/
def RunEnded (s : State) : Prop := s.runSensor = false ∧ s.runButton = false ∧ s.runScroll = false

/-! ### The ring -/

/-- The parameters are legal, the ring has `RB_N` slots and both indices lie in it (10_state.md R115, R116). -/
structure RingOk (s : State) : Prop where
  params : s.params.wf = true
  slots : s.rb.length = s.params.rbN
  write : s.rbW < s.params.rbN
  read : s.rbR < s.params.rbN

/-- The live samples, oldest first (42_ring_buffer.md R502). -/
def liveSamples (s : State) : List Sample :=
  (List.range (liveCount s)).map fun k => s.rb.getD ((s.rbR + k) % s.params.rbN) ⟨0, 0, 0⟩

/-- The sum of dx over some samples, modulo 2^16. -/
def sumDx (l : List Sample) : BitVec 16 := (l.map Sample.dx).sum

/-- The sum of dy over some samples, modulo 2^16. -/
def sumDy (l : List Sample) : BitVec 16 := (l.map Sample.dy).sum

/-! ### Buttons and scroll -/

/-- A pending release belongs to a DOWN button and owes at most `AUX_CONFIRM` samples (10_state.md R142,
44_eager_debounce.md R605). -/
def AuxOk (s : State) (a : AuxButton) : Prop :=
  perAuxGet s.axConfirm a ≤ Config.auxConfirm ∧ (0 < perAuxGet s.axConfirm a → perAuxGet s.axState a = .down)

/-- The scroll task has taken no event without a direction (45_scroll_decoder.md R660). -/
def ScrollStepOk : ScrollStep → Prop
  | .take => True
  | .adjust ev d => ev = true → d ≠ .none
  | .report d => d ≠ .none

/-- The buttons and the scroll decoder hold legal values (10_state.md R142, R151 to R154, 45_scroll_decoder.md R655, R660). -/
structure UnitsOk (s : State) : Prop where
  params : s.params.wf = true
  aux : ∀ a, AuxOk s a
  speedLow : Config.speedMin ≤ s.scSpeed
  speedHigh : s.scSpeed ≤ s.params.speedMax
  stopped : s.scStopped ≤ s.params.pause
  direction : s.scEvent = true → s.scDir ≠ .none
  scrollSteps : ∀ st ∈ s.scrollK, ScrollStepOk st

/-! ### The driver -/

/-- The driver state at each sequencer step (41_sensor_driver.md R450). -/
def drvAgrees : SeqStep → DrvState → Prop
  | .idle, d => d = .unpowered
  | .wake, d | .ncsPulse, d | .resetPulse, d | .settle, d => d = .resetting
  | .first, d | .verify, d | .repair, d | .close, d => d = .programming
  | .diag, d | .mvalid, d => d = .verified ∨ d = .degraded
  | .stream, d | .mode, d => d = .streaming
  | .fail, d => d = .failed

/-- The sequencer step that replays a script (R457). -/
def scriptStep : ScriptId → SeqStep
  | .first => .first
  | .repair => .repair
  | .close => .close
  | .mode _ => .mode

/-- The sequencer step that makes a transaction (R456 to R460, R465, R470). -/
def callSeqStep : BusCall → SeqStep
  | .entry sc _ _ => scriptStep sc
  | .verify => .verify
  | .diag _ => .diag
  | .capture => .stream

/-- The sequencer steps at which the sensor task can stand at each position (41_sensor_driver.md R452 to R470, 46_poll_loop.md
R700 to R706). -/
def posAgrees : SensorPos → SeqStep → Prop
  | .idle, st => st ≠ .mode
  | .timed _, st => st ∈ [.wake, .ncsPulse, .resetPulse, .settle, .mvalid]
  | .pulseEnd, st => st = .ncsPulse ∨ st = .resetPulse
  | .leave, st => st ∈ [.wake, .ncsPulse, .resetPulse, .settle, .first, .repair, .close, .diag, .mvalid]
  | .switched _, st => st = .mode
  | .pollWait _, st => st = .verify
  | .bus c _, st => st = callSeqStep c
  | .push _, st => st = .stream
  | .drain, st | .emit _ _, st | .advance, st | .capture, st | .sleep, st | .sleeping _ _, st | .boundary, st =>
    betweenCycles st = true

/-- Where chip-select is asserted: in the power-up pulse, and in a transaction between its two changes of `NCS` (40_register_bus.md
R401, 41_sensor_driver.md R453). -/
def chipSelected : SensorPos → SeqStep → Bool
  | .timed _, st | .pulseEnd, st => st == .ncsPulse
  | .bus _ (.settle _), _ | .bus _ (.send _), _ | .bus _ (.delay _ _), _ | .bus _ (.answer _), _
  | .bus _ (.release _ _), _ => true
  | .bus _ (.gap _), _ | .bus _ .assert, _ | .bus _ (.returned _ _), _ => false
  | .idle, _ | .leave, _ | .switched _, _ | .pollWait _, _ | .push _, _ | .drain, _ | .emit _ _, _ | .advance, _
  | .capture, _ | .sleep, _ | .sleeping _ _, _ | .boundary, _ => false

/-- Where the sensor's reset line is asserted: in the reset pulse (R454). -/
def resetHeld : SensorPos → SeqStep → Bool
  | .timed _, st | .pulseEnd, st => st == .resetPulse
  | .idle, _ | .leave, _ | .switched _, _ | .pollWait _, _ | .bus _ _, _ | .push _, _ | .drain, _ | .emit _ _, _
  | .advance, _ | .capture, _ | .sleep, _ | .sleeping _ _, _ | .boundary, _ => false

/-- Chip-select and the reset line are as the sensor task's position says; the driver state and that position fit the sequencer
step; the sensor has power from `S_WAKE` on; DEGRADED is 0 until the poll ends, 1 in `S_REPAIR`, and then tells how the poll
ended; a stopped sensor loop stands at its sleep boundary (40_register_bus.md R401, R402; 41_sensor_driver.md R450 to R470;
46_poll_loop.md R730). -/
structure DriverOk (s : State) : Prop where
  chipSelect : s.ncs = !chipSelected s.sensorPos s.seqPc.step
  resetLine : s.nreset = !resetHeld s.sensorPos s.seqPc.step
  agrees : drvAgrees s.seqPc.step s.drvState
  position : posAgrees s.sensorPos s.seqPc.step
  attempts : s.seqPc.attempt ≤ Config.verifyAttempts
  attemptLeft : (∃ t, s.sensorPos = .pollWait t) ∨ (∃ ph, s.sensorPos = .bus .verify ph) →
    s.seqPc.attempt < Config.verifyAttempts
  powered : s.seqPc.step ≠ .idle → s.seqPc.step ≠ .wake ∨ s.sensorPos ≠ .idle → s.power = true
  undecided : s.seqPc.step ∈ [.wake, .ncsPulse, .resetPulse, .settle, .first, .verify] → s.degraded = false
  repairing : s.seqPc.step = .repair → s.degraded = true
  notDegraded : s.drvState = .verified → s.degraded = false
  isDegraded : s.drvState = .degraded → s.degraded = true
  diagSize : s.diag.length = 5
  stopped : s.runSensor = false → SensorAtBoundary s

/-! ### Observations -/

/-- Every report and every event recorded so far is one that the IAB may make (30_encoding.md R320 to R322,
60_exceptions.md R801). -/
structure ObservationsOk (s : State) : Prop where
  reports : ∀ r ∈ s.reports, r.wf = true
  events : ∀ e ∈ s.events, e.wf s.params = true

/-- A safe state. -/
structure SafeState (s : State) : Prop where
  ring : RingOk s
  units : UnitsOk s
  driver : DriverOk s
  observations : ObservationsOk s

/-- A safe run: every state that `n` steps reach is safe. -/
def SafeRun (n : Nat) (s : State) : Prop := ∀ k ≤ n, ∀ t, Sys2Proof.core.run k s = .next t → SafeState t

/-! ### Transactions under an exact schedule -/

/-- What is left of the gap after the previous transaction (40_register_bus.md R425). -/
def gapLeft (s : State) : Nat := gapNeeded s.params s.busLast - elapsedSince s.now (lastEnd s)

/-- When the next transaction asserts chip-select. -/
def assertTime (s : State) : Time := s.now + BitVec.ofNat 32 (gapLeft s)

/-- When it releases chip-select, if its data comes `delay` after its last byte sent. -/
def releaseTime (s : State) (delay : Nat) : Time :=
  assertTime s + BitVec.ofNat 32 s.params.tNcsSclk + BitVec.ofNat 32 delay

/-- The state after one transaction: bytes sent, then bytes received, inside one assertion of chip-select (R401, R410, R415,
R420). -/
def transacted (kind : BusKind) (sent : List Byte) (delay : Nat) (received : List WireEvent) (s : State) : State :=
  { s with
    now := releaseTime s delay
    ncs := true
    busLast := kind
    busLastEnd := releaseTime s delay
    wire := s.wire ++ .ncs false (assertTime s) :: (sent.map .sent ++ received ++ [.ncs true (releaseTime s delay)]) }

/-! ### The bus as an observer sees it -/

/-- The bytes sent, in order. -/
def sentBytes : List WireEvent → List Byte
  | [] => []
  | .sent b :: rest => b :: sentBytes rest
  | .ncs _ _ :: rest => sentBytes rest
  | .received _ :: rest => sentBytes rest

/-- The bytes a script word is sent as (30_encoding.md R301, R307): the command byte, then the value. -/
def wordBytes (w : BitVec 16) : List Byte := [w.extractLsb' 8 8, w.extractLsb' 0 8]

/-! ### Sequences of transactions under an exact schedule -/

/-- The state after a single-byte read that the sensor answers with a byte (40_register_bus.md R415). -/
def readAnswered (a : Addr) (b : Byte) (s : State) : State :=
  transacted .read [commandByte false a] s.params.tSrad [.received [b]] s

/-- The state after a single-byte read that faults (R415, R427). -/
def readFaulted (a : Addr) (s : State) : State := transacted .read [commandByte false a] s.params.tSrad [] s

/-- The state after the motion burst that the sensor answers with its payload (R420). -/
def burstAnswered (bytes : List Byte) (s : State) : State :=
  transacted .burst [commandByte false s.params.burstAddr] s.params.tSradMotbr [.received bytes] s

/-- The state after a motion burst that faults (R420, R427). -/
def burstFaulted (s : State) : State :=
  transacted .burst [commandByte false s.params.burstAddr] s.params.tSradMotbr [] s

/-- The state after the writes of some script words, one transaction each, in order (41_sensor_driver.md R457). -/
def replayed (words : List (BitVec 16)) (s : State) : State :=
  words.foldl (fun u w => transacted .write (wordBytes w) 0 [] u) s

/-- When a verification read may begin: `T_VERIFY` after the end of the previous transaction (R456). -/
def pollTime (s : State) : Time := s.now + BitVec.ofNat 32 (Config.tVerify - elapsedSince s.now (lastEnd s))

/-- The state after verification reads that the sensor answers with some bytes (R456). -/
def polled (bytes : List Byte) (s : State) : State :=
  bytes.foldl (fun u b => readAnswered u.params.verifyAddr b { u with now := pollTime u }) s

/-- The state after reads of some addresses that the sensor answers with a byte each (R458). -/
def readEach (answers : List (Addr × Byte)) (s : State) : State :=
  answers.foldl (fun u x => readAnswered x.1 x.2 u) s

/-- The state after a transport fault that is fatal (R462). -/
def failedAt (pc : SeqPc) (s : State) : State :=
  { s with
    events := s.events ++ [.transportFaultInit pc]
    drvState := .failed
    seqPc := ⟨.fail, pc.idx, pc.attempt⟩ }

/-! ### Motion reports -/

/-- What remains of a delta after `k` reports (42_ring_buffer.md R506). -/
def leftOver (d : Int) (k : Nat) : Int := if 0 ≤ d then max (d - 127 * k) 0 else min (d + 127 * k) 0

/-- How many reports a sample takes: max(1, ceil(|dx| / 127), ceil(|dy| / 127)) (R506). -/
def reportCount (x : Sample) : Nat := max 1 (max ((x.dx.toInt.natAbs + 126) / 127) ((x.dy.toInt.natAbs + 126) / 127))

/-- The reports of the live samples, oldest first (R505). -/
def liveReports (s : State) : List Report := (liveSamples s).flatMap sampleReports

/-! ### Instructions -/

/-- The handler of each pin, as an instruction (60_exceptions.md R821). -/
def handlerInstr : Pin → Instr
  | .lNo => .mainEdge .left
  | .lNc => .mainEdge .left
  | .rNo => .mainEdge .right
  | .rNc => .mainEdge .right
  | .m => .auxEdge .m
  | .s4 => .auxEdge .s4
  | .s5 => .auxEdge .s5
  | .scrA => .scrollEdgeA
  | .scrB => .scrollEdgeB

/-- The outcome of some agenda items, taken by the machine's step one after the other. -/
def runItems (items : List Item) (s : State) : Host.Outcome State Fault Refusal :=
  Sys2Proof.core.run items.length { s with agenda := items, ended := false }

/-- A state once `n` items have been run and none is left. -/
def ranItems (n : Nat) (s : State) : State := { s with agenda := [], pos := s.pos + n, ended := false }

/-- The items by which the environment lets a time pass: one step of it, or none for no time (60_exceptions.md R850). -/
def passing (T : Nat) : List Item := if h : 0 < T then [.act (.tick T h)] else []

/-- Where the replay of a script stands before the entry at an index: at the entry's write, or past the script
(41_sensor_driver.md R457). -/
def writePos (sc : ScriptId) (i : Nat) (s : State) : SensorPos :=
  match (scriptOf s.params sc)[i]? with
  | some w => .bus (.entry sc (w.extractLsb' 8 7) (w.extractLsb' 0 8)) (.gap (lastEnd s))
  | none => match sc with | .mode m => .switched m | .first | .repair | .close => .leave

/-- The outcome of some instructions, each run in the state the one before it left. -/
def execAll : List Instr → State → Host.Outcome State Fault Refusal
  | [], s => .next s
  | i :: is, s =>
    match exec i s with
    | .next t => execAll is t
    | .fault f => .fault f
    | .refused r => .refused r

end Sys2Proof.Safety
end

