-- ==== Sys2Proof/Certificates/Slice0/Obligations.lean ====
section
/-! DEFINITION. The statements about the model, each with the rules of spec/ it formalises. -/

open Sys2Proof Sys2Proof.Machine Sys2Proof.Safety

/-! ### Encodings -/

/-- Every well-formed instruction that has bits decodes from its own code, with every operand, under the parameters it is
well formed for; and `TICKMS k` is `k` codes that each decode to `TICK 1000` (30_encoding.md R344, R346). -/
def Obligations.DecodeEncodeAgree : Prop :=
  (∀ (p : Params) (i : Instr), i.wellFormed p = true → hasCode i = true →
    ∃ c, encode i = [c] ∧ decode p.burstAddr c = .ok i) ∧
  (∀ (b : Addr) (k : Nat), (encode (.tickms k)).length = k ∧
    ∀ c ∈ encode (.tickms k), decode b c = .ok (.tick 1000))

/-- Every 16-bit word is either one stimulus, whose encoding is that word, or illegal; and an illegal word is refused by the
runner's step (30_encoding.md R343). -/
def Obligations.StimulusWordsTotalAndUnambiguous : Prop :=
  (∀ w, illegalStim w = false →
    ∃ i, decodeStim w = .ok i ∧ encode i = [.stim w] ∧ (∀ p, i.wellFormed p = true) ∧ ∀ r, i ≠ .reserved r) ∧
  (∀ w, illegalStim w = true → (∃ e, decodeStim w = .error e) ∨ ∃ r, decodeStim w = .ok (.reserved r)) ∧
  (∀ w s, illegalStim w = true → fetchItem s = some (.code (.stim w)) → ∃ r, step s = .refused r)

/-- A receiver tells every command byte apart: its direction bit and its address rebuild it (30_encoding.md R300, R310); a
byte with direction 0 stands alone and a byte with direction 1 takes one more, and no other bytes are a transaction (R301 to
R304, R309); what is read is what is sent. -/
def Obligations.BusBytesReadBack : Prop :=
  (∀ c : Byte, commandByte (commandDir c) (commandAddr c) = c) ∧
  (∀ b bytes i, decodeBus b bytes = .ok i →
    encode i = [.bus bytes] ∧ ∀ p : Params, p.burstAddr = b → i.wellFormed p = true) ∧
  (∀ b bytes, (∃ i, decodeBus b bytes = .ok i) ↔
    (∃ c : Byte, bytes = [c] ∧ c.getLsbD 7 = false) ∨ ∃ c d : Byte, bytes = [c, d] ∧ c.getLsbD 7 = true)

/-- A script word with bit 15 = 1 is the entry of its two fields, and replaying the entry sends that word unchanged; a word
with bit 15 = 0 is no entry, and a parameter set that holds one is refused (30_encoding.md R307). -/
def Obligations.ScriptWordsAreWrites : Prop :=
  (∀ w : BitVec 16, w.getLsbD 15 = true →
    decodeScript w = .ok (.script (w.extractLsb' 8 7) (w.extractLsb' 0 8)) ∧
    encode (.script (w.extractLsb' 8 7) (w.extractLsb' 0 8)) = [.script w] ∧
    encode (.tWrite (w.extractLsb' 8 7) (w.extractLsb' 0 8)) = [.bus (wordBytes w)]) ∧
  (∀ w : BitVec 16, w.getLsbD 15 = false → decodeScript w = .error .notAScriptEntry) ∧
  (∀ (p : Params) (w : BitVec 16), w ∈ p.scriptWords → w.getLsbD 15 = false → p.wf = false)

/-- Some words of the spec decode to the instructions they stand for (30_encoding.md R301 to R307, R341; 47_stimulus.md). -/
def Obligations.SpecWordsDecode : Prop :=
  decodeStim 0x0000 = .ok .endProgram ∧ decodeStim 0x1000 = .ok (.pin .lNo false) ∧ decodeStim 0x2000 = .ok (.isr .lNo) ∧
  decodeStim 0x33E8 = .ok (.tick 1000) ∧ decodeStim 0x4000 = .ok .btask ∧ decodeStim 0x5000 = .ok .stask ∧
  decodeStim 0x6000 = .ok .scycle ∧ decodeStim 0x7000 = .ok .initStim ∧ decodeStim 0x8002 = .ok (.mode .office) ∧
  decodeStim 0x9000 = .ok .shut ∧ decodeStim 0xA040 = .ok (.pusht 1 0) ∧ decodeStim 0xB000 = .ok .draint ∧
  decodeBus 0x16 [0x90, 0x55] = .ok (.tWrite 0x10 0x55) ∧ decodeBus 0x16 [0x02] = .ok (.tRead 0x02) ∧
  decodeBus 0x16 [0x16] = .ok (.tBurst 0x16) ∧ decodeScript 0x9055 = .ok (.script 0x10 0x55)

/-! ### The step -/

/-- When the next item of the agenda (the model's own, log 4) is bits that decode to an instruction, the step is that
instruction's meaning, and then the machine goes on to the item after it (47_stimulus.md R765, R766); while the sensor task
stands inside an operation, every other operation of it, and `PUSHT` and `DRAINT`, are refused (the model's choice, log 12).
A board command is taken at the sleep boundary and is `Init` or the mode switch (60_exceptions.md R852), and is refused once
the loop has stopped (log 22) and runs with a shutdown request that the loop has not yet acted on (the model's choice, log
30); the sensor task, going on, runs its bring-up step, after the last of them its boundary's test, or a sensor cycle, begun
without another test of `SHUTDOWN_REQ` (the model's choice, log 28) (46_poll_loop.md R706, R730); a step of the environment
or the dispatcher is `PIN`, `ISR`, the advance of time or the shutdown request (R840, R850, R851), and an `ISR` with nothing
pending is skipped (the model's choice, log 6). Which of two reasons a refusal reports is the model's choice (log 31). -/
def Obligations.StepRunsDecodedInstruction : Prop :=
  let finished := fun (t : State) => { t with agenda := t.agenda.tail, pos := t.pos + 1 }
  (∀ (s : State) (c : Code) (rest : List Item) (i : Instr),
    s.ended = false → s.agenda = .code c :: rest → decode s.params.burstAddr c = .ok i →
    (s.sensorPos = .idle ∨ i = .endProgram ∨ (∃ p l, i = .pin p l) ∨ (∃ p, i = .isr p) ∨ (∃ n, i = .tick n) ∨ i = .btask ∨
        i = .stask ∨ i = .shut ∨ (∃ w, i = .reserved w) →
      (∀ t, exec i s = .next t → step s = .next (finished t)) ∧
      (∀ f, exec i s = .fault f → step s = .fault f) ∧
      (∀ r, exec i s = .refused r → step s = .refused r)) ∧
    (s.sensorPos ≠ .idle →
        i ∈ [.scycle, .initStim, .draint] ∨ (∃ m, i = .mode m) ∨ (∃ dx dy, i = .pusht dx dy) ∨ (∃ a v, i = .tWrite a v) ∨
          (∃ a, i = .tRead a) ∨ (∃ a, i = .tBurst a) ∨ (∃ a v, i = .script a v) →
      step s = .refused .sensorBusy)) ∧
  (∀ (s : State) (c : BoardCommand) (rest : List Item) (i : Instr),
    s.ended = false → s.agenda = .board c :: rest →
    (s.sensorPos ≠ .idle → step s = .refused .sensorBusy) ∧
    (s.sensorPos = .idle → s.runSensor = false → step s = .refused (.loopStopped .sensor)) ∧
    (s.sensorPos = .idle → s.runSensor = true → c = .init ∧ i = .initCommand ∨ (∃ m, c = .mode m ∧ i = .modeSwitch m) →
      (∀ t, exec i s = .next t → step s = .next (finished t)) ∧ (∀ r, exec i s = .refused r → step s = .refused r))) ∧
  (∀ (s : State) (rest : List Item), s.ended = false → s.agenda = .sensor :: rest →
    (s.runSensor = false → step s = .refused (.loopStopped .sensor)) ∧
    (s.runSensor = true → s.sensorPos ≠ .idle → step s = .refused .sensorBusy) ∧
    (s.sensorPos = .idle → s.seqPc.step ∈ [.idle, .stream, .fail] →
      (∀ t, exec .sensorCycle s = .next t → step s = .next (finished t)) ∧
      (∀ r, exec .sensorCycle s = .refused r → step s = .refused r)) ∧
    (s.runSensor = true → s.sensorPos = .idle →
      ∀ i, (s.seqPc.step, i) ∈ [(SeqStep.wake, Instr.sWake), (.ncsPulse, .sNcsPulse), (.resetPulse, .sResetPulse),
          (.settle, .sSettle), (.first, .replay .first), (.verify, .sVerify), (.repair, .sRepair), (.close, .sClose),
          (.diag, .sDiag), (.mvalid, .sMvalid)] →
        (∀ t, exec i s = .next t → step s = .next (finished
          { t with runSensor := !(t.shutdownReq && (t.seqPc.step == .stream || t.seqPc.step == .fail)) })) ∧
        (∀ r, exec i s = .refused r → step s = .refused r))) ∧
  (∀ (s : State) (a : Act) (rest : List Item), s.ended = false → s.agenda = .act a :: rest →
    (∀ p l t, a = .pin p l → exec (.pin p l) s = .next t → step s = .next (finished t)) ∧
    (∀ p t, a = .isr p → exec (.isr p) s = .next t → step s = .next (finished t)) ∧
    (∀ p, a = .isr p → perPinGet s.irqPending p = false → step s = .next (finished s)) ∧
    (∀ n h, a = .tick n h → step s = .next (finished { s with now := s.now + BitVec.ofNat 32 n })) ∧
    (a = .shutdownReq → step s = .next (finished { s with shutdownReq := true })))

/-- No instruction touches the parameters, the program, its position or the position of the sensor task's own steps (log 5);
only `END` ends the program; and reports, events and the bus trace only grow. A rule step of the sensor task takes no time,
leaves pins, interrupts, the buttons, the scroll decoder and the other tasks alone, and only adds to reports, events and the
bus trace (10_state.md R163, R171; 20_memory.md R237; 60_exceptions.md R801, R850, R860). -/
def Obligations.ObservationsOnlyGrow : Prop :=
  (∀ (i : Instr) (s t : State), exec i s = .next t →
    t.params = s.params ∧ t.agenda = s.agenda ∧ t.pos = s.pos ∧ t.sensorPos = s.sensorPos ∧
    (i ≠ .endProgram → t.ended = s.ended) ∧
    (∃ l, t.reports = s.reports ++ l) ∧ (∃ l, t.events = s.events ++ l) ∧ ∃ l, t.wire = s.wire ++ l) ∧
  (∀ (s t : State), runItems [.sensorStep] s = .next t →
    t.params = s.params ∧ t.now = s.now ∧ t.pins = s.pins ∧ t.irqPending = s.irqPending ∧ t.mlState = s.mlState ∧
    t.mlFlag = s.mlFlag ∧ t.axState = s.axState ∧ t.axEvent = s.axEvent ∧ t.axConfirm = s.axConfirm ∧
    t.axHoldTs = s.axHoldTs ∧ t.scPhaseA = s.scPhaseA ∧ t.scPhaseB = s.scPhaseB ∧ t.scDir = s.scDir ∧
    t.scSpeed = s.scSpeed ∧ t.scStopped = s.scStopped ∧ t.scEvent = s.scEvent ∧ t.shutdownReq = s.shutdownReq ∧
    t.runButton = s.runButton ∧ t.runScroll = s.runScroll ∧ t.buttonK = s.buttonK ∧ t.buttonSleep = s.buttonSleep ∧
    t.scrollK = s.scrollK ∧ t.scrollSleep = s.scrollSleep ∧
    (∃ l, t.reports = s.reports ++ l) ∧ (∃ l, t.events = s.events ++ l) ∧ ∃ l, t.wire = s.wire ++ l)

/-- A word of the reserved classes 0xC to 0xF is refused in every state, and so is the step that meets one; no state follows
(47_stimulus.md R762, R766). -/
def Obligations.ReservedClassesRefused : Prop :=
  (∀ w s, exec (.reserved w) s = .refused .reservedClass) ∧
  (∀ (w : BitVec 16) (s : State), 0xC000 ≤ w.toNat → fetchItem s = some (.code (.stim w)) →
    step s = .refused .reservedClass)

/-- `END` ends the program and changes nothing else, and the runner runs nothing more after it (a step is then refused, the
model's choice, log 10); `TICK n` adds n to the time modulo 2^32 and `TICKMS k` is k ticks of 1000 for any k (as one
instruction the model's choice, log 26), with no other change; `raise` and `emit` append their record and change nothing
else; an event's record is its code, 1 to 6, and its info: `SEQ_PC`, `SEQ_ATTEMPT`, none, the number of the button or the
index of the slot, the main buttons being 0 L and 1 R, the auxiliary ones 0 M, 1 S4 and 2 S5; and a report's five bytes are
its buttons, dx, dy, wheel and pan in this order (30_encoding.md R320, R344; 47_stimulus.md R750, R753, R765;
60_exceptions.md R801, R860). -/
def Obligations.TimeEndAndTraces : Prop :=
  (∀ s, exec .endProgram s = .next { s with ended := true } ∧ step { s with ended := true } = .refused .programEnded) ∧
  (∀ n s, exec (.tick n) s = .next { s with now := s.now + BitVec.ofNat 32 n.toNat }) ∧
  (∀ k s, exec (.tickms k) s = execAll (List.replicate k (.tick 1000)) s ∧
    exec (.tickms k) s = .next { s with now := s.now + BitVec.ofNat 32 (1000 * k) }) ∧
  (∀ e s, exec (.raise e) s = .next { s with events := s.events ++ [e] }) ∧
  (∀ r s, exec (.emit r) s = .next { s with reports := s.reports ++ [r] }) ∧
  ((∀ e s, eventTrace { s with events := s.events ++ [e] } = eventTrace s ++ [eventRecord e]) ∧
    (∀ pc, eventRecord (.transportFaultInit pc) = (1, .position pc)) ∧
    (∀ n, eventRecord (.verifyTimeout n) = (2, .number n)) ∧
    eventRecord .transportFaultCapture = (3, .none) ∧
    eventRecord (.spuriousEdge .left) = (4, .number 0) ∧ eventRecord (.spuriousEdge .right) = (4, .number 1) ∧
    (∀ o, eventRecord (.rbOverflow o) = (5, .number o)) ∧
    eventRecord (.auxBounce .m) = (6, .number 0) ∧ eventRecord (.auxBounce .s4) = (6, .number 1) ∧
    eventRecord (.auxBounce .s5) = (6, .number 2)) ∧
  (∀ buttons dx dy wheel pan, reportBytes ⟨buttons, dx, dy, wheel, pan⟩ = [buttons, dx, dy, wheel, pan])

/-! ### Reset -/

/-- After reset every element for which the spec gives a value holds it (70_reset_and_hazards.md R900); of the elements it
calls unspecified nothing is said. -/
def Obligations.ResetValues : Prop :=
  let s := Sys2Proof.Machine.State.reset
  (∀ p, pending s p = false) ∧ s.power = false ∧ s.ncs = true ∧ s.nreset = true ∧ s.busLast = .none ∧
  s.busCorrupt = false ∧ s.drvState = .unpowered ∧ s.degraded = false ∧ s.mode = s.params.resetMode ∧ s.rbW = 0 ∧
  s.rbR = 0 ∧ s.ovfCount = 0 ∧ s.seqPc = ⟨.idle, 0, 0⟩ ∧ (∀ b, perMainGet s.mlState b = .up) ∧
  (∀ b, perMainGet s.mlFlag b = .clear) ∧ (∀ a, perAuxGet s.axState a = .up) ∧ (∀ a, perAuxGet s.axEvent a = false) ∧
  (∀ a, perAuxGet s.axConfirm a = 0) ∧ s.scDir = .none ∧ s.scSpeed = 1 ∧ s.scStopped = 0 ∧ s.scEvent = false ∧
  s.shutdownReq = false ∧ s.runSensor = true ∧ s.runButton = true ∧ s.runScroll = true ∧ s.reports = [] ∧ s.events = []

/-- The parameters of the machine at reset, the model's opaque constants (log 1), meet every constraint of 00_scope.md R8,
and the reset state, with the model's values for the unspecified elements (log 2), is safe. -/
def Obligations.ResetIsSafe : Prop :=
  Config.openParams.wf = true ∧ SafeState Sys2Proof.Machine.State.reset

/-! ### The status registers -/

/-- The layout of the status registers: every field at its place and every other bit 0; SR19 and SR20 show their value
whole, as wide as their parameter makes them (10_state.md R170, log 24); and the codes of the fields that hold a name (R111,
R113, R130, R131, R140, R151). -/
def Obligations.StatusRegisterLayout : Prop :=
  ∀ (s : State),
    let bit := fun (b : Bool) => b.toNat
    let word := statusReg s
    word 0 = some ((drvStateCode s.drvState).toNat + 8 * bit s.degraded + 16 * (opModeBits s.mode).toNat) ∧
    word 1 = some (bit s.power + 2 * bit s.ncs + 4 * bit s.nreset + 8 * (busKindCode s.busLast).toNat) ∧
    (∀ k < 5, word (2 + k) = some (s.diag.getD k 0).toNat) ∧
    (s.rbW < 256 → word 7 = some s.rbW) ∧ (s.rbR < 256 → word 8 = some s.rbR) ∧ word 9 = some s.ovfCount.toNat ∧
    (∀ b n, (b, n) ∈ [(MainButton.left, 10), (.right, 11)] →
      word n = some (bit (contactBit (perMainGet s.mlState b)) + 2 * (handshakeCode (perMainGet s.mlFlag b)).toNat)) ∧
    (∀ a n, (a, n) ∈ [(AuxButton.m, 12), (.s4, 13), (.s5, 14)] → perAuxGet s.axConfirm a < 16 →
      word n = some (bit (contactBit (perAuxGet s.axState a)) + 2 * bit (perAuxGet s.axEvent a)
        + 4 * perAuxGet s.axConfirm a)) ∧
    (∀ a n, (a, n) ∈ [(AuxButton.m, 15), (.s4, 16), (.s5, 17)] → word n = some (perAuxGet s.axHoldTs a).toNat) ∧
    word 18 = some (bit s.scPhaseA + 2 * bit s.scPhaseB + 4 * (scrollDirCode s.scDir).toNat + 16 * bit s.scEvent) ∧
    word 19 = some s.scSpeed ∧ word 20 = some s.scStopped ∧
    word 21 = some s.now.toNat ∧ word 22 = some s.loopStart.toNat ∧
    word 23 = some (bit s.pins.lNo + 2 * bit s.pins.lNc + 4 * bit s.pins.rNo + 8 * bit s.pins.rNc + 16 * bit s.pins.m
      + 32 * bit s.pins.s4 + 64 * bit s.pins.s5 + 128 * bit s.pins.scrA + 256 * bit s.pins.scrB) ∧
    word 24 = some (bit s.irqPending.lNo + 2 * bit s.irqPending.lNc + 4 * bit s.irqPending.rNo
      + 8 * bit s.irqPending.rNc + 16 * bit s.irqPending.m + 32 * bit s.irqPending.s4 + 64 * bit s.irqPending.s5
      + 128 * bit s.irqPending.scrA + 256 * bit s.irqPending.scrB) ∧
    word 25 = some (bit s.shutdownReq + 2 * bit s.runSensor + 4 * bit s.runButton + 8 * bit s.runScroll) ∧
    (∀ n, 25 < n → word n = none) ∧
    ([DrvState.unpowered, .resetting, .programming, .verified, .degraded, .streaming, .failed].map drvStateCode =
      [0, 1, 2, 3, 4, 5, 6]) ∧
    ([OpMode.highPerformance, .lowPower, .office, .cordedGaming].map opModeBits = [0, 1, 2, 3]) ∧
    ([BusKind.none, .write, .read, .burst].map busKindCode = [0, 1, 2, 3]) ∧
    ([Contact.up, .down].map contactBit = [false, true]) ∧
    ([Handshake.clear, .set, .read].map handshakeCode = [0, 1, 2]) ∧
    ([ScrollDir.none, .up, .down].map scrollDirCode = [0, 1, 2])

/-! ### Invariants of every step -/

/-- Every step keeps the ring well formed: its size, both indices inside it, the parameters legal (10_state.md R115,
R116). -/
def Obligations.StepKeepsTheRing : Prop :=
  ∀ s t, RingOk s → step s = .next t → RingOk t

/-- Every step keeps the buttons and the scroll decoder legal: a pending release belongs to a DOWN button and owes at most
ten samples, the speed stays in its range, the idle counter at most `PAUSE`, an event has a direction (10_state.md R142,
R152; 44_eager_debounce.md R605; 45_scroll_decoder.md R655, R660, R661). -/
def Obligations.StepKeepsTheUnits : Prop :=
  ∀ s t, UnitsOk s → step s = .next t → UnitsOk t

/-- Every step keeps the driver state and the sensor task's position in step with the sequencer, chip-select and the reset
line asserted exactly where that position is inside a transaction or a pulse, DEGRADED 0 from `S_WAKE` to `S_VERIFY`, 1 in
`S_REPAIR` and after it true to how the poll ended, and a stopped sensor loop at its sleep boundary (40_register_bus.md
R401; 41_sensor_driver.md R450 to R462; 46_poll_loop.md R730). -/
def Obligations.StepKeepsTheDriver : Prop :=
  ∀ s t, DriverOk s → step s = .next t → DriverOk t

/-- From a safe state, every state of a run of any length is safe; in particular every report and event is one that the spec
allows (30_encoding.md R320 to R322; 60_exceptions.md R801). -/
def Obligations.EveryRunIsSafe : Prop :=
  ∀ n s, SafeState s → SafeRun n s

/-- A failed driver stays failed whatever runs next, and nothing more goes over the bus, where the sensor task stands at a
position that fits the sequencer step, as it always does (41_sensor_driver.md R450, R462). -/
def Obligations.FailedIsTerminal : Prop :=
  ∀ s t, s.drvState = .failed → s.seqPc.step = .fail → posAgrees s.sensorPos s.seqPc.step → step s = .next t →
    t.drvState = .failed ∧ t.seqPc = s.seqPc ∧ t.wire = s.wire ∧ t.ncs = s.ncs ∧ t.power = s.power ∧ t.nreset = s.nreset

/-- What no step undoes: power once on, `BUS_CORRUPT`, a stopped loop, a shutdown request, and the parameters (10_state.md
R162; 20_memory.md R237; 40_register_bus.md R428; 60_exceptions.md R873). -/
def Obligations.NothingIsUndone : Prop :=
  ∀ s t, step s = .next t →
    (s.power = true → t.power = true) ∧ (s.busCorrupt = true → t.busCorrupt = true) ∧
    (s.runSensor = false → t.runSensor = false) ∧ (s.runButton = false → t.runButton = false) ∧
    (s.runScroll = false → t.runScroll = false) ∧ (s.shutdownReq = true → t.shutdownReq = true) ∧ t.params = s.params

/-- `BUS_CORRUPT` is set only by waits drawn below their minimum, the draws being the model's slacks (log 7): when no slack
to come is negative, a step neither sets nor clears it, and no slack to come is negative after it; a write whose gap or
settle time is drawn below its minimum sets it, so does a read or a burst whose gap, settle time or delay before the
sensor's answer is, and no other write, read or burst does; and so does the end of such a wait when the transaction is taken
step by step (transactions issued on their own: log 11, log 32; 10_state.md R110, 40_register_bus.md R428). -/
def Obligations.OnlyShortWaitsCorrupt : Prop :=
  let gapShort := fun (s : State) (g : Int) =>
    max ((gapNeeded s.params s.busLast : Int) + g).toNat (elapsedSince s.now (lastEnd s)) < gapNeeded s.params s.busLast
  let short := fun (T : Nat) (x : Int) => ((T : Int) + x).toNat < T
  (∀ s t, (∀ x ∈ s.slacks, 0 ≤ x) → step s = .next t →
    t.busCorrupt = s.busCorrupt ∧ ∀ x ∈ t.slacks, 0 ≤ x) ∧
  (∀ a v s g c, s.interludes = [] → s.slacks = [g, c] → busPermitted .write s = true →
    ∃ t, exec (.busWrite a v) s = .next t ∧
      (t.busCorrupt = true ↔ s.busCorrupt = true ∨ gapShort s g ∨ short s.params.tNcsSclk c)) ∧
  (∀ a s g c d rest, s.interludes = [] → s.slacks = [g, c, d] → busPermitted .read s = true → a ≠ s.params.burstAddr →
    (∃ b, s.oracle = .byte b :: rest) ∨ s.oracle = .fault :: rest →
    ∃ t, exec (.busRead a) s = .next t ∧
      (t.busCorrupt = true ↔
        s.busCorrupt = true ∨ gapShort s g ∨ short s.params.tNcsSclk c ∨ short s.params.tSrad d)) ∧
  (∀ s g c d rest, s.interludes = [] → s.slacks = [g, c, d] → busPermitted .burst s = true →
    (∃ bytes, bytes.length = 12 ∧ s.oracle = .burst bytes :: rest) ∨ s.oracle = .fault :: rest →
    ∃ t, exec (.busBurst s.params.burstAddr 12) s = .next t ∧
      (t.busCorrupt = true ↔
        s.busCorrupt = true ∨ gapShort s g ∨ short s.params.tNcsSclk c ∨ short s.params.tSradMotbr d)) ∧
  (∀ c ph t0 T (s : State) x, s.runSensor = true → s.sensorPos = .bus c ph → s.slacks = [x] →
    (ph = .gap t0 ∧ T = gapNeeded s.params s.busLast) ∨ (ph = .settle t0 ∧ T = s.params.tNcsSclk) ∨
      ((∃ ts, ph = .delay ts t0) ∧
        ((c = .verify ∨ ∃ a, c = .diag a) ∧ T = s.params.tSrad ∨ c = .capture ∧ T = s.params.tSradMotbr)) →
    ((T : Int) + x).toNat ≤ elapsedSince s.now t0 →
    ∃ t, runItems [.sensorStep] s = .next t ∧
      (t.busCorrupt = true ↔ s.busCorrupt = true ∨ elapsedSince s.now t0 < T))

/-- Handlers and the button and scroll tasks, as operations under any schedule and as steps of their own, never touch the
bus outputs or the bus timing state (10_state.md R172). -/
def Obligations.OnlyTheSensorTouchesTheBus : Prop :=
  (∀ (i : Instr) (s t : State), exec i s = .next t →
    ((∃ p, i = .isr p) ∨ (∃ p, i = .handlerEntry p) ∨ i = .handlerReturn ∨ (∃ b, i = .mainEdge b) ∨ (∃ a, i = .auxEdge a) ∨
      i = .scrollEdgeA ∨ i = .scrollEdgeB ∨ i = .btask ∨ i = .buttonCycle ∨ i = .buttonMask ∨ (∃ b, i = .latchPoll b) ∨
      (∃ a, i = .auxConfirm a) ∨ (∃ a, i = .auxPoll a) ∨ i = .stask ∨ i = .scrollCycle ∨ i = .scrollPoll ∨
      (∃ ev, i = .speedAdjust ev)) →
    t.power = s.power ∧ t.ncs = s.ncs ∧ t.nreset = s.nreset ∧ t.busLast = s.busLast ∧ t.busLastEnd = s.busLastEnd ∧
      t.busCorrupt = s.busCorrupt ∧ t.wire = s.wire) ∧
  (∀ (a : Act) (s t : State), runItems [.act a] s = .next t →
    t.power = s.power ∧ t.ncs = s.ncs ∧ t.nreset = s.nreset ∧ t.busLast = s.busLast ∧ t.busLastEnd = s.busLastEnd ∧
      t.busCorrupt = s.busCorrupt ∧ t.wire = s.wire)

/-! ### Pins, interrupts and handlers -/

/-- `PIN p, l` drives the pin and, on a selected edge, latches its interrupt; a level that does not change is no edge;
nothing else changes (47_stimulus.md R751; 60_exceptions.md R811). -/
def Obligations.PinDrivesAndLatches : Prop :=
  (∀ p l s, exec (.pin p l) s = .next { s with
    pins := perPinSet s.pins p l
    irqPending :=
      if perPinGet s.pins p ≠ l ∧ edgeSelected s.params.scrollEdge p (perPinGet s.pins p) l = true then
        perPinSet s.irqPending p true
      else s.irqPending }) ∧
  (∀ e p old new, edgeSelected e p old new = true ↔
    (pinNumber p ≤ 6 ∧ old ≠ new) ∨
    (7 ≤ pinNumber p ∧ ((e = .rising ∧ old = false ∧ new = true) ∨ (e = .falling ∧ old = true ∧ new = false))))

/-- `ISR p` and handler entry clear the pending bit and run the pin's handler to completion in one step; without a pending
bit they are refused, `HandlerEntry` by the model's choice (log 12); handler return restores nothing and, there being no
mask state, changes nothing (log 15) (47_stimulus.md R752; 60_exceptions.md R820, R821, R823). -/
def Obligations.HandlerEntryRunsTheHandler : Prop :=
  (∀ p s, perPinGet s.irqPending p = true →
    ∃ t, exec (handlerInstr p) { s with irqPending := perPinSet s.irqPending p false } = .next t ∧
      exec (.isr p) s = .next t ∧ exec (.handlerEntry p) s = .next t) ∧
  (∀ p s, perPinGet s.irqPending p = false →
    exec (.isr p) s = .refused (.irqNotPending p) ∧ exec (.handlerEntry p) s = .refused (.irqNotPending p)) ∧
  (∀ s, exec .handlerReturn s = .next s)

/-- `MainEdge(b)`: agreeing pins only raise SPURIOUS_EDGE; disagreeing pins commit what the NO pin says, and a new state
sets the flag, from any of its values (43_button_latch.md R550, R551, R557). -/
def Obligations.MainEdgeCommits : Prop :=
  ∀ b s,
    let no := perPinGet s.pins (noPin b)
    let nc := perPinGet s.pins (ncPin b)
    let new : Contact := if no = perMainGet s.params.mainPressLevel b then .down else .up
    exec (.mainEdge b) s = .next (
      if no = nc then { s with events := s.events ++ [.spuriousEdge b] }
      else if new = perMainGet s.mlState b then s
      else { s with mlFlag := perMainSet s.mlFlag b .set, mlState := perMainSet s.mlState b new })

/-- `AuxEdge(a)`: an edge while UP is a press, accepted at once; while DOWN it starts a release confirmation of ten samples,
unless one is pending (44_eager_debounce.md R600). -/
def Obligations.AuxEdgeAcceptsEagerly : Prop :=
  ∀ a s, exec (.auxEdge a) s = .next (
    if perAuxGet s.axState a = .up then
      { s with
        axState := perAuxSet s.axState a .down
        axEvent := perAuxSet s.axEvent a true
        axHoldTs := perAuxSet s.axHoldTs a s.now }
    else if perAuxGet s.axConfirm a = 0 then { s with axConfirm := perAuxSet s.axConfirm a 10 }
    else s)

/-- The scroll handlers record both levels, infer the direction from the other pin and raise the event; nothing else changes
(45_scroll_decoder.md R650, R651). -/
def Obligations.ScrollEdgesInferDirection : Prop :=
  (∀ s, exec .scrollEdgeA s = .next { s with
    scPhaseA := s.pins.scrA, scPhaseB := s.pins.scrB, scEvent := true
    scDir := if s.pins.scrB = true then .up else .down }) ∧
  (∀ s, exec .scrollEdgeB s = .next { s with
    scPhaseA := s.pins.scrA, scPhaseB := s.pins.scrB, scEvent := true
    scDir := if s.pins.scrA = true then .down else .up })

/-! ### The button task -/

/-- `AuxConfirm(a)` is one sample of a pending release: the press level aborts it with AUX_BOUNCE, the last owed sample of
another level releases the button; so a release that is never contradicted is accepted on the tenth sample and not before
(44_eager_debounce.md R605, R612; 70_reset_and_hazards.md R919). -/
def Obligations.AuxConfirmTakesTenSamples : Prop :=
  (∀ a s,
    let n := perAuxGet s.axConfirm a
    exec (.auxConfirm a) s = .next (
      if n = 0 then s
      else if perPinGet s.pins (auxPin a) = perAuxGet s.params.auxPressLevel a then
        { s with axConfirm := perAuxSet s.axConfirm a 0, events := s.events ++ [.auxBounce a] }
      else if n = 1 then
        { s with
          axConfirm := perAuxSet s.axConfirm a 0
          axState := perAuxSet s.axState a .up
          axEvent := perAuxSet s.axEvent a true }
      else { s with axConfirm := perAuxSet s.axConfirm a (n - 1) })) ∧
  (∀ a s k, perAuxGet s.axState a = .down → perAuxGet s.axConfirm a = 10 → k ≤ 10 →
    perPinGet s.pins (auxPin a) ≠ perAuxGet s.params.auxPressLevel a →
    execAll (List.replicate k (.auxConfirm a)) s = .next (
      if k = 10 then
        { s with
          axConfirm := perAuxSet s.axConfirm a 0
          axState := perAuxSet s.axState a .up
          axEvent := perAuxSet s.axEvent a true }
      else { s with axConfirm := perAuxSet s.axConfirm a (10 - k) }))

/-- `ButtonMask()`: bit 0 left, 1 right, 2 middle, 3 side-5, 4 side-4, bits 7 to 5 zero, each 1 when the button is DOWN; it
goes to the caller and nothing else changes (46_poll_loop.md R712). -/
def Obligations.ButtonMaskBits : Prop :=
  ∀ s, exec .buttonMask s = .next { s with ret := .mask (buttonMask s) } ∧
    (buttonMask s).toNat =
      (if s.mlState.left = .down then 1 else 0) + (if s.mlState.right = .down then 2 else 0) +
      (if s.axState.m = .down then 4 else 0) + (if s.axState.s5 = .down then 8 else 0) +
      (if s.axState.s4 = .down then 16 else 0)

/-- `LatchPoll(b)` with nobody in between (no interlude, log 5): a SET flag gives one report of all five buttons and ends
CLEAR; any other flag nothing (43_button_latch.md R555). -/
def Obligations.LatchPollReports : Prop :=
  ∀ b s, s.interludes = [] →
    exec (.latchPoll b) s = .next (
      if perMainGet s.mlFlag b = .set then
        { s with mlFlag := perMainSet s.mlFlag b .clear, reports := s.reports ++ [⟨buttonMask s, 0, 0, 0, 0⟩] }
      else s)

/-- A handler that commits a new state inside `LatchPoll(b)` (placed there by an interlude, log 5) is not lost: the flag
stays SET, and the next poll reports the new state. Between steps 1 and 2 the report of this poll already shows the new
state; between steps 2 and 3 it shows the state before (43_button_latch.md R555, 70_reset_and_hazards.md R916). -/
def Obligations.LatchPollKeepsRetrigger : Prop :=
  ∀ b p (s : State), (p = noPin b ∨ p = ncPin b) → perMainGet s.mlFlag b = .set →
    perPinGet s.irqPending p = true → perPinGet s.pins (noPin b) ≠ perPinGet s.pins (ncPin b) →
    (perPinGet s.pins (noPin b) = perMainGet s.params.mainPressLevel b ↔ perMainGet s.mlState b = .up) →
    let new : Contact := if perMainGet s.mlState b = .up then .down else .up
    let committed : State :=
      { s with
        interludes := []
        irqPending := perPinSet s.irqPending p false
        mlFlag := perMainSet s.mlFlag b .set
        mlState := perMainSet s.mlState b new }
    let report : State → State := fun u => { u with reports := u.reports ++ [⟨buttonMask u, 0, 0, 0, 0⟩] }
    let before : State := { committed with reports := s.reports ++ [⟨buttonMask s, 0, 0, 0, 0⟩] }
    (s.interludes = [[.isr p]] → exec (.latchPoll b) s = .next (report committed)) ∧
    (s.interludes = [[], [.isr p]] → exec (.latchPoll b) s = .next before) ∧
    ∀ t, t = report committed ∨ t = before →
      exec (.latchPoll b) t = .next { report t with mlFlag := perMainSet t.mlFlag b .clear }

/-- `AuxPoll(a)` with nobody in between (log 5): takes the event and, if there was one, reports all five buttons
(44_eager_debounce.md R610). -/
def Obligations.AuxPollReports : Prop :=
  ∀ a s, s.interludes = [] →
    exec (.auxPoll a) s = .next { s with
      axEvent := perAuxSet s.axEvent a false
      reports := if perAuxGet s.axEvent a = true then s.reports ++ [⟨buttonMask s, 0, 0, 0, 0⟩] else s.reports }

/-- A button-task cycle is its eight calls in order, then the sleep boundary; as `BTASK` its sleep takes no time, as
`ButtonCycle` `T_BTASK` = 1000; a stopped task is refused. The task's own steps, taken one by one with nobody in between,
end as the cycle does, and its sleep begins; a step of the sleeping task does nothing before 1000 have passed, then stops it
if shutdown is requested and else begins the next cycle; past its boundary the task begins its next cycle without another
test (the model's choice, log 28), and a stopped task takes no step; and a pending release that is never contradicted is
accepted at the tenth cycle, nine sleeps after the first began, and reported in that same cycle (46_poll_loop.md R710, R711,
R730; 47_stimulus.md R754; 70_reset_and_hazards.md R932; the test after the sleep: log 14; the time from the edge: log
29). -/
def Obligations.ButtonCycleRunsItsCalls : Prop :=
  (∀ s, ExactSchedule s → ButtonAtBoundary s → s.runButton = true →
    ∃ u, execAll [.auxConfirm .m, .auxConfirm .s4, .auxConfirm .s5, .latchPoll .left, .latchPoll .right, .auxPoll .m,
        .auxPoll .s4, .auxPoll .s5] s = .next u ∧
      exec .btask s = .next { u with runButton := !u.shutdownReq } ∧
      exec .buttonCycle s = .next { u with now := s.now + 1000, runButton := !u.shutdownReq }) ∧
  (∀ s, s.runButton = false →
    exec .btask s = .refused (.loopStopped .button) ∧ exec .buttonCycle s = .refused (.loopStopped .button) ∧
    runItems [.act .button] s = .next (ranItems 1 s)) ∧
  (∀ s, ExactSchedule s → ButtonAtBoundary s → s.runButton = true →
    ∃ u n, execAll [.auxConfirm .m, .auxConfirm .s4, .auxConfirm .s5, .latchPoll .left, .latchPoll .right, .auxPoll .m,
        .auxPoll .s4, .auxPoll .s5] s = .next u ∧
      runItems (List.replicate n (.act .button)) s = .next (ranItems n { u with buttonSleep := some s.now })) ∧
  (∀ s, s.runButton = true → s.buttonK = [] →
    let begun : State := { s with
      buttonSleep := none
      buttonK := [.confirm .m, .confirm .s4, .confirm .s5, .latchTake .left, .latchTake .right, .auxTake .m, .auxTake .s4,
        .auxTake .s5] }
    (s.buttonSleep = none → runItems [.act .button] s = .next (ranItems 1 begun)) ∧
    ∀ t0, s.buttonSleep = some t0 →
      runItems [.act .button] s = .next (ranItems 1 (
        if elapsedSince s.now t0 < 1000 then s
        else if s.shutdownReq = true then { s with buttonSleep := none, runButton := false }
        else begun))) ∧
  (∀ a s, ExactSchedule s → ButtonAtBoundary s → s.runButton = true → s.shutdownReq = false →
    perAuxGet s.axState a = .down → perAuxGet s.axConfirm a = 10 →
    perPinGet s.pins (auxPin a) ≠ perAuxGet s.params.auxPressLevel a →
    ∃ u t l, execAll (List.replicate 9 .buttonCycle) s = .next u ∧ exec .buttonCycle u = .next t ∧
      u.now = s.now + 9000 ∧ perAuxGet u.axState a = .down ∧ perAuxGet u.axConfirm a = 1 ∧
      perAuxGet t.axState a = .up ∧ perAuxGet t.axConfirm a = 0 ∧ t.reports = u.reports ++ l ∧
      ⟨buttonMask t, 0, 0, 0, 0⟩ ∈ l)

/-! ### The scroll task -/

/-- `SpeedAdjust(ev)`; so the speed falls by exactly 1 after `PAUSE` + 1 idle cycles above the floor and not before, never
below 1, rises by exactly 1 with an event, saturating at `SPEED_MAX`, and never leaves its range (45_scroll_decoder.md R655,
R661). -/
def Obligations.SpeedAdjustRampsAndDecays : Prop :=
  (∀ ev s, exec (.speedAdjust ev) s = .next (
    if ev = true then { s with scStopped := 0, scSpeed := min (s.scSpeed + 1) s.params.speedMax }
    else if 1 < s.scSpeed then
      if s.params.pause < s.scStopped + 1 then { s with scSpeed := s.scSpeed - 1, scStopped := 0 }
      else { s with scStopped := s.scStopped + 1 }
    else s)) ∧
  (∀ s k, s.scStopped = 0 → 1 < s.scSpeed → k ≤ s.params.pause + 1 →
    execAll (List.replicate k (.speedAdjust false)) s = .next (
      if k = s.params.pause + 1 then { s with scSpeed := s.scSpeed - 1, scStopped := 0 } else { s with scStopped := k })) ∧
  (∀ s k, s.scSpeed = 1 → execAll (List.replicate k (.speedAdjust false)) s = .next s) ∧
  (∀ ev s t, 1 ≤ s.scSpeed → s.scSpeed ≤ s.params.speedMax → exec (.speedAdjust ev) s = .next t →
    1 ≤ t.scSpeed ∧ t.scSpeed ≤ s.params.speedMax ∧
    (ev = true → t.scSpeed = if s.scSpeed = s.params.speedMax then s.scSpeed else s.scSpeed + 1))

/-- `ScrollPoll()` with nobody in between (log 5): the event is taken, the speed adjusted, and an event gives one wheel
report of the adjusted speed with the sign of its direction (45_scroll_decoder.md R660). -/
def Obligations.ScrollPollReportsWheel : Prop :=
  ∀ (s : State), s.interludes = [] →
    ∃ u, exec (.speedAdjust s.scEvent) { s with scEvent := false } = .next u ∧
      exec .scrollPoll s = .next { u with
        reports :=
          if s.scEvent = true then
            s.reports ++ [⟨0x00, 0, 0, if s.scDir = .up then BitVec.ofInt 8 u.scSpeed else BitVec.ofInt 8 (-u.scSpeed), 0⟩]
          else s.reports }

/-- A scroll-task cycle is `ScrollPoll`, then the sleep boundary; as `STASK` its sleep takes no time, as `ScrollCycle`
`T_STASK` = 1000; a stopped task is refused. The task's own steps, taken one by one with nobody in between, end as the cycle
does, and its sleep begins; a step of the sleeping task does nothing before 1000 have passed, then stops it if shutdown is
requested and else begins the next cycle; past its boundary the task begins its next cycle without another test (the model's
choice, log 28), and a stopped task takes no step (46_poll_loop.md R720, R730; 47_stimulus.md R755; the test after the
sleep: log 14). -/
def Obligations.ScrollCycleRunsItsCall : Prop :=
  (∀ s, ExactSchedule s → ScrollAtBoundary s → s.runScroll = true →
    ∃ u, exec .scrollPoll s = .next u ∧
      exec .stask s = .next { u with runScroll := !u.shutdownReq } ∧
      exec .scrollCycle s = .next { u with now := s.now + 1000, runScroll := !u.shutdownReq }) ∧
  (∀ s, s.runScroll = false →
    exec .stask s = .refused (.loopStopped .scroll) ∧ exec .scrollCycle s = .refused (.loopStopped .scroll) ∧
    runItems [.act .scroll] s = .next (ranItems 1 s)) ∧
  (∀ s, ExactSchedule s → ScrollAtBoundary s → s.runScroll = true →
    ∃ u, exec .scrollPoll s = .next u ∧
      let n := if s.scEvent = true then 4 else 3
      runItems (List.replicate n (.act .scroll)) s = .next (ranItems n { u with scrollSleep := some s.now })) ∧
  (∀ s, s.runScroll = true → s.scrollK = [] →
    let begun : State := { s with scrollSleep := none, scrollK := [.take] }
    (s.scrollSleep = none → runItems [.act .scroll] s = .next (ranItems 1 begun)) ∧
    ∀ t0, s.scrollSleep = some t0 →
      runItems [.act .scroll] s = .next (ranItems 1 (
        if elapsedSince s.now t0 < 1000 then s
        else if s.shutdownReq = true then { s with scrollSleep := none, runScroll := false }
        else begun)))

/-! ### The ring -/

/-- `Merge()` adds the oldest sample, modulo 2^16, into the next-oldest slot, which keeps its timestamp, moves the read
index on, counts and records, run on its own also where the ring is not full (the model's choice, log 12; in a push it runs
only when full). `Push` stores the sample at the write index and advances it, after a merge when it meets the read index; it
never stops. `PUSHT` pushes its two sign-extended deltas and the time (42_ring_buffer.md R500, R501; 47_stimulus.md
R760). -/
def Obligations.PushStoresAndMerges : Prop :=
  (∀ s, RingOk s →
    ∃ o n : Sample, s.rb[s.rbR]? = some o ∧ s.rb[(s.rbR + 1) % s.params.rbN]? = some n ∧
      exec .merge s = .next { s with
        rb := s.rb.set ((s.rbR + 1) % s.params.rbN) ⟨n.dx + o.dx, n.dy + o.dy, n.ts⟩
        rbR := (s.rbR + 1) % s.params.rbN
        ovfCount := s.ovfCount + 1
        events := s.events ++ [.rbOverflow s.rbR] }) ∧
  (∀ (x : Sample) s, RingOk s →
    let stored : State := { s with rb := s.rb.set s.rbW x }
    let next := (s.rbW + 1) % s.params.rbN
    (next ≠ s.rbR → exec (.push x) s = .next { stored with rbW := next }) ∧
    (next = s.rbR → ∃ u, exec .merge stored = .next u ∧ exec (.push x) s = .next { u with rbW := next })) ∧
  (∀ dx dy s, RingOk s →
    ∃ t, exec (.push ⟨BitVec.ofInt 16 dx.toInt, BitVec.ofInt 16 dy.toInt, s.now⟩) s = .next t ∧
      exec (.pusht dx dy) s = .next t)

/-- Any number of pushes succeeds and conserves the displacement: the deltas of the live samples sum, modulo 2^16, to those
of before and those pushed (42_ring_buffer.md R504). -/
def Obligations.PushesConserveDisplacement : Prop :=
  ∀ (xs : List Sample) s, RingOk s →
    ∃ t, execAll (xs.map .push) s = .next t ∧ RingOk t ∧
      sumDx (liveSamples t) = sumDx (liveSamples s) + sumDx xs ∧
      sumDy (liveSamples t) = sumDy (liveSamples s) + sumDy xs

/-- Occupancy: at most `RB_N` - 1 samples are live; a push leaves the ring not empty, with one sample more, or as many when
it was full (42_ring_buffer.md R502, R503). -/
def Obligations.RingOccupancy : Prop :=
  (∀ s, RingOk s → liveCount s ≤ s.params.rbN - 1 ∧ (liveCount s = 0 ↔ s.rbW = s.rbR)) ∧
  (∀ x s t, RingOk s → exec (.push x) s = .next t →
    t.rbW ≠ t.rbR ∧ liveCount t = min (liveCount s + 1) (s.params.rbN - 1))

/-- `EmitMotion(s)` with nobody in between (log 5): max(1, ceil(|dx|/127), ceil(|dy|/127)) reports, the k-th carrying what
is left of each delta clamped to -127..127, zero elsewhere; the carried deltas sum to the sample's (42_ring_buffer.md R506,
R507). -/
def Obligations.EmitMotionSplits : Prop :=
  ∀ (x : Sample) s, s.interludes = [] →
    let cx := fun (k : Nat) => clamp (leftOver x.dx.toInt k) (-127) 127
    let cy := fun (k : Nat) => clamp (leftOver x.dy.toInt k) (-127) 127
    exec (.emitMotion x) s = .next { s with
      reports := s.reports ++
        (List.range (reportCount x)).map fun k => ⟨0x00, BitVec.ofInt 8 (cx k), BitVec.ofInt 8 (cy k), 0, 0⟩ } ∧
    ((List.range (reportCount x)).map cx).sum = x.dx.toInt ∧ ((List.range (reportCount x)).map cy).sum = x.dy.toInt

/-- `Drain()` and `DRAINT` with nobody in between (log 5) report every live sample, oldest first, and leave the ring empty;
the slots stay as they are; and the sensor task's own steps, one report or one move of `RB_R` each, taken one by one, end
the same (42_ring_buffer.md R505, R506; 47_stimulus.md R761). -/
def Obligations.DrainReportsEverySample : Prop :=
  ∀ s, RingOk s → s.interludes = [] →
    let t : State := { s with rbR := s.rbW, reports := s.reports ++ liveReports s }
    exec .drain s = .next t ∧ exec .draint s = .next t ∧
    (s.runSensor = true → s.sensorPos = .drain →
      ∃ n, runItems (List.replicate n .sensorStep) s = .next (ranItems n { t with sensorPos := .capture }))

/-! ### The register bus -/

/-- `BusWrite` and `T_WRITE` with every wait at its minimum: the gap, one assertion of chip-select, the settle time, the
command byte with direction 1 and the value, the answer; a faulted write ends alike. The write of a script entry taken step
by step, as the environment lets the time of each wait pass, ends the same, its answer with the caller (transactions issued
on their own: log 11, log 32; 30_encoding.md R301; 40_register_bus.md R410, R425, R427; 20_memory.md R230). -/
def Obligations.BusWriteTransaction : Prop :=
  (∀ a v s, ExactSchedule s → busPermitted .write s = true →
    let t : State :=
      { transacted .write [commandByte true a, v] 0 [] s with
        writeOracle := s.writeOracle.tail
        ret := .write (s.writeOracle.headD (.ok ())) }
    exec (.busWrite a v) s = .next t ∧ exec (.tWrite a v) s = .next t) ∧
  (∀ sc a v s, s.slacks = [] → s.runSensor = true → s.sensorPos = .bus (.entry sc a v) (.gap (lastEnd s)) →
    gapNeeded s.params s.busLast < 2 ^ 32 → s.params.tNcsSclk < 2 ^ 32 →
    let items : List Item :=
      passing (gapLeft s) ++ [.sensorStep, .sensorStep] ++
        passing s.params.tNcsSclk ++ [.sensorStep, .sensorStep, .sensorStep]
    runItems items s =
      .next (ranItems items.length { transacted .write [commandByte true a, v] 0 [] s with
        writeOracle := s.writeOracle.tail
        sensorPos := .bus (.entry sc a v) (.returned (assertTime s)
          (if s.writeOracle.headD (.ok ()) = .ok () then .ok [] else .fault)) }))

/-- `BusRead` and `T_READ` with every wait at its minimum: the command byte with direction 0, `T_SRAD`, and the oracle's
byte or fault; a verification or diagnostic read taken step by step ends the same (transactions issued on their own: log 11,
log 32; 30_encoding.md R302; 40_register_bus.md R415, R425, R427; 20_memory.md R230). -/
def Obligations.BusReadTransaction : Prop :=
  (∀ a s, ExactSchedule s → busPermitted .read s = true → a ≠ s.params.burstAddr →
    (∀ b rest, s.oracle = .byte b :: rest →
      let t : State := { readAnswered a b s with oracle := rest, ret := .read (.ok b) }
      exec (.busRead a) s = .next t ∧ exec (.tRead a) s = .next t) ∧
    (∀ rest, s.oracle = .fault :: rest →
      let t : State := { readFaulted a s with oracle := rest, ret := .read .fault }
      exec (.busRead a) s = .next t ∧ exec (.tRead a) s = .next t)) ∧
  (∀ c a s, c = .verify ∧ a = s.params.verifyAddr ∨ c = .diag a → s.slacks = [] → s.runSensor = true →
    s.sensorPos = .bus c (.gap (lastEnd s)) →
    gapNeeded s.params s.busLast < 2 ^ 32 → s.params.tNcsSclk < 2 ^ 32 → s.params.tSrad < 2 ^ 32 →
    let items : List Item :=
      passing (gapLeft s) ++ [.sensorStep, .sensorStep] ++
        passing s.params.tNcsSclk ++ [.sensorStep, .sensorStep] ++
        passing s.params.tSrad ++ [.sensorStep, .sensorStep, .sensorStep]
    (∀ b rest, s.oracle = .byte b :: rest →
      runItems items s = .next (ranItems items.length { readAnswered a b s with
        oracle := rest, sensorPos := .bus c (.returned (assertTime s) (.ok [b])) })) ∧
    (∀ rest, s.oracle = .fault :: rest →
      runItems items s = .next (ranItems items.length { readFaulted a s with
        oracle := rest, sensorPos := .bus c (.returned (assertTime s) .fault) })))

/-- `BusBurst` and `T_BURST` with every wait at its minimum: the command byte of `BURST_ADDR`, `T_SRAD_MOTBR`, and twelve
bytes or a fault; a capture's burst taken step by step ends the same (transactions issued on their own: log 11, log 32;
30_encoding.md R303; 40_register_bus.md R420, R425, R427; 20_memory.md R230). -/
def Obligations.BusBurstTransaction : Prop :=
  (∀ s, ExactSchedule s → busPermitted .burst s = true →
    (∀ bytes rest, s.oracle = .burst bytes :: rest → bytes.length = 12 →
      let t : State := { burstAnswered bytes s with oracle := rest, ret := .burst (.ok bytes) }
      exec (.busBurst s.params.burstAddr 12) s = .next t ∧ exec (.tBurst s.params.burstAddr) s = .next t) ∧
    (∀ rest, s.oracle = .fault :: rest →
      let t : State := { burstFaulted s with oracle := rest, ret := .burst .fault }
      exec (.busBurst s.params.burstAddr 12) s = .next t ∧ exec (.tBurst s.params.burstAddr) s = .next t)) ∧
  (∀ s, s.slacks = [] → s.runSensor = true → s.sensorPos = .bus .capture (.gap (lastEnd s)) →
    gapNeeded s.params s.busLast < 2 ^ 32 → s.params.tNcsSclk < 2 ^ 32 → s.params.tSradMotbr < 2 ^ 32 →
    let items : List Item :=
      passing (gapLeft s) ++ [.sensorStep, .sensorStep] ++
        passing s.params.tNcsSclk ++ [.sensorStep, .sensorStep] ++
        passing s.params.tSradMotbr ++ [.sensorStep, .sensorStep, .sensorStep]
    (∀ bytes rest, s.oracle = .burst bytes :: rest → bytes.length = 12 →
      runItems items s = .next (ranItems items.length { burstAnswered bytes s with
        oracle := rest, sensorPos := .bus .capture (.returned (assertTime s) (.ok bytes)) })) ∧
    (∀ rest, s.oracle = .fault :: rest →
      runItems items s = .next (ranItems items.length { burstFaulted s with
        oracle := rest, sensorPos := .bus .capture (.returned (assertTime s) .fault) })))

/-- Under any schedule a write, a read and a burst complete, each in one assertion of chip-select with the same bytes,
whatever the other agents do during its waits; a transaction that faults is framed alike, is the last one for the next gap,
and gives its caller the fault (20_memory.md R211; 40_register_bus.md R401, R427, R429; transactions issued on their own:
log 11, log 32). -/
def Obligations.TransactionsUnderAnySchedule : Prop :=
  let framed := fun (s t : State) (kind : BusKind) (bytes : List WireEvent) =>
    ∃ t1 t2, t.ncs = true ∧ t.busLast = kind ∧ t.busLastEnd = t2 ∧ t.wire = s.wire ++ .ncs false t1 :: (bytes ++ [.ncs true t2])
  (∀ a v s, busPermitted .write s = true →
    ∃ t, exec (.busWrite a v) s = .next t ∧ framed s t .write [.sent (commandByte true a), .sent v] ∧
      t.ret = .write (s.writeOracle.headD (.ok ())) ∧ t.writeOracle = s.writeOracle.tail) ∧
  (∀ a rest s, busPermitted .read s = true → a ≠ s.params.burstAddr →
    (∀ b, s.oracle = .byte b :: rest →
      ∃ t, exec (.busRead a) s = .next t ∧ framed s t .read [.sent (commandByte false a), .received [b]] ∧
        t.ret = .read (.ok b) ∧ t.oracle = rest) ∧
    (s.oracle = .fault :: rest →
      ∃ t, exec (.busRead a) s = .next t ∧ framed s t .read [.sent (commandByte false a)] ∧
        t.ret = .read .fault ∧ t.oracle = rest)) ∧
  (∀ rest s, busPermitted .burst s = true →
    (∀ bytes, s.oracle = .burst bytes :: rest → bytes.length = 12 →
      ∃ t, exec (.busBurst s.params.burstAddr 12) s = .next t ∧
        framed s t .burst [.sent (commandByte false s.params.burstAddr), .received bytes] ∧
        t.ret = .burst (.ok bytes) ∧ t.oracle = rest) ∧
    (s.oracle = .fault :: rest →
      ∃ t, exec (.busBurst s.params.burstAddr 12) s = .next t ∧
        framed s t .burst [.sent (commandByte false s.params.burstAddr)] ∧ t.ret = .burst .fault ∧ t.oracle = rest))

/-- Refusals of the bus, where the stand-alone operations stop as log 11 and log 32 say, with the reason that log 31 says: a
single-byte read of `BURST_ADDR`, and a burst of another address or another length; any bus operation without power, in
reset, or outside the sequencer steps from `S_FIRST` on, a capture or a mode switch; and a read that the oracle's queue
cannot answer (30_encoding.md R308, 40_register_bus.md R402, 47_stimulus.md R764). -/
def Obligations.BusRefusals : Prop :=
  (∀ s, busPermitted .read s = true →
    exec (.busRead s.params.burstAddr) s = .refused .readOfBurstAddr ∧
    exec (.tRead s.params.burstAddr) s = .refused .readOfBurstAddr) ∧
  (∀ a n s, a ≠ s.params.burstAddr ∨ n ≠ 12 → exec (.busBurst a n) s = .refused .notTheBurst) ∧
  (∀ a s, a ≠ s.params.burstAddr → exec (.tBurst a) s = .refused .notTheBurst) ∧
  (∀ s, s.power = false ∨ s.nreset = false ∨
      s.seqPc.step ∈ [.idle, .wake, .ncsPulse, .resetPulse, .settle, .mvalid, .fail] →
    ∀ a v,
      exec (.busWrite a v) s = .refused .busNotPermitted ∧ exec (.tWrite a v) s = .refused .busNotPermitted ∧
      exec (.script a v) s = .refused .busNotPermitted ∧
      exec (.busRead a) s = .refused .busNotPermitted ∧ exec (.tRead a) s = .refused .busNotPermitted ∧
      exec (.busBurst s.params.burstAddr 12) s = .refused .busNotPermitted ∧
      exec (.tBurst s.params.burstAddr) s = .refused .busNotPermitted) ∧
  (∀ a s, busPermitted .read s = true → a ≠ s.params.burstAddr →
    (s.oracle = [] → exec (.busRead a) s = .refused .oracleEmpty) ∧
    (∀ bytes rest, s.oracle = .burst bytes :: rest → exec (.busRead a) s = .refused .oracleWrongKind)) ∧
  (∀ s, busPermitted .burst s = true →
    (s.oracle = [] → exec (.busBurst s.params.burstAddr 12) s = .refused .oracleEmpty) ∧
    (∀ b rest, s.oracle = .byte b :: rest → exec (.busBurst s.params.burstAddr 12) s = .refused .oracleWrongKind))

/-! ### Bring-up -/

/-- `Init` starts bring-up from UNPOWERED in `S_IDLE` and is refused elsewhere; the fatal bring-up fault, in the steps from
`S_FIRST` to `S_DIAG` and in `S_MODE`, records the position and fails the driver, and power, reset and chip-select stay
(41_sensor_driver.md R451, R462). -/
def Obligations.InitAndFatalFault : Prop :=
  (∀ s, s.drvState = .unpowered → s.seqPc.step = .idle →
    exec .initCommand s = .next { s with degraded := false, drvState := .resetting, seqPc := ⟨.wake, 0, 0⟩ }) ∧
  (∀ s, s.drvState ≠ .unpowered ∨ s.seqPc.step ≠ .idle → exec .initCommand s = .refused .notUnpowered) ∧
  (∀ s, s.seqPc.step ∈ [.first, .verify, .repair, .close, .diag, .mode] →
    exec .fatalBringupFault s = .next { s with
      events := s.events ++ [.transportFaultInit s.seqPc]
      drvState := .failed
      seqPc := ⟨.fail, s.seqPc.idx, s.seqPc.attempt⟩ })

/-- The timed steps of the bring-up with every wait at its minimum: power on and wake; the chip-select pulse, with no byte
sent; the reset pulse; the settle time, after which no gap is owed; and `T_MOTION_VALID` after the last diagnostic read,
after which the driver streams. Taken step by step, as the environment lets the time pass, they end the same, after
`S_MVALID` with the test at the sleep boundary; power, chip-select and the reset line change with the first step (a step
issued on its own: log 12; 41_sensor_driver.md R452 to R455, R461; 20_memory.md R230; 46_poll_loop.md R730). -/
def Obligations.TimedBringUpSteps : Prop :=
  (∀ s, ExactSchedule s →
    (s.seqPc.step = .wake → exec .sWake s = .next { s with
      power := true, now := s.now + BitVec.ofNat 32 s.params.tWake, seqPc := ⟨.ncsPulse, 0, 0⟩ }) ∧
    (s.seqPc.step = .ncsPulse →
      let later := s.now + BitVec.ofNat 32 s.params.tNcsPulse
      exec .sNcsPulse s = .next { s with
        ncs := true, now := later, seqPc := ⟨.resetPulse, 0, 0⟩
        wire := s.wire ++ [.ncs false s.now, .ncs true later] }) ∧
    (s.seqPc.step = .resetPulse → exec .sResetPulse s = .next { s with
      nreset := true, now := s.now + BitVec.ofNat 32 s.params.tResetPulse, seqPc := ⟨.settle, 0, 0⟩ }) ∧
    (s.seqPc.step = .settle → exec .sSettle s = .next { s with
      now := s.now + BitVec.ofNat 32 s.params.tResetSettle, busLast := .none, drvState := .programming
      seqPc := ⟨.first, 0, 0⟩ })) ∧
  (∀ s, ExactSchedule s → s.seqPc.step = .mvalid →
    exec .sMvalid s = .next { s with
      now := s.now + BitVec.ofNat 32 (s.params.tMotionValid - elapsedSince s.now (lastEnd s))
      drvState := .streaming
      seqPc := ⟨.stream, 0, s.seqPc.attempt⟩ }) ∧
  (∀ s, ExactSchedule s → s.runSensor = true → s.sensorPos = .idle →
    let ends := fun (items : List Item) (u : State) => runItems items s = .next (ranItems items.length u)
    (s.seqPc.step = .wake → s.params.tWake < 2 ^ 32 →
      ∃ u, exec .sWake s = .next u ∧
        runItems [.sensorStep] s = .next (ranItems 1 { s with power := true, sensorPos := .timed s.now }) ∧
        ends ([.sensorStep] ++ passing s.params.tWake ++ [.sensorStep, .sensorStep]) u) ∧
    (s.seqPc.step = .ncsPulse → s.params.tNcsPulse < 2 ^ 32 →
      ∃ u, exec .sNcsPulse s = .next u ∧
        runItems [.sensorStep] s = .next (ranItems 1 { s with
          ncs := false, wire := s.wire ++ [.ncs false s.now], sensorPos := .timed s.now }) ∧
        ends ([.sensorStep] ++ passing s.params.tNcsPulse ++ [.sensorStep, .sensorStep, .sensorStep]) u) ∧
    (s.seqPc.step = .resetPulse → s.params.tResetPulse < 2 ^ 32 →
      ∃ u, exec .sResetPulse s = .next u ∧
        runItems [.sensorStep] s = .next (ranItems 1 { s with nreset := false, sensorPos := .timed s.now }) ∧
        ends ([.sensorStep] ++ passing s.params.tResetPulse ++ [.sensorStep, .sensorStep, .sensorStep]) u) ∧
    (s.seqPc.step = .settle → s.params.tResetSettle < 2 ^ 32 →
      ∃ u, exec .sSettle s = .next u ∧
        ends ([.sensorStep] ++ passing s.params.tResetSettle ++ [.sensorStep, .sensorStep]) u) ∧
    (s.seqPc.step = .mvalid → s.params.tMotionValid < 2 ^ 32 →
      ∃ u, exec .sMvalid s = .next u ∧
        ends ([.sensorStep] ++ passing (s.params.tMotionValid - elapsedSince s.now (lastEnd s)) ++
          [.sensorStep, .sensorStep, .sensorStep]) { u with runSensor := !s.shutdownReq }))

/-- One script entry is one write; on `ok` the next entry is due, on a fault the driver fails; an entry issued on its own
sends its own word (the model's choice, log 33). Step by step: a replay begins with the write at `SEQ_IDX`; the answered
write goes on to the next entry, or to the end of the script; a faulted one fails the driver, which ends a bring-up at its
sleep boundary (41_sensor_driver.md R457, R462; 46_poll_loop.md R730). -/
def Obligations.ScriptEntryIsOneWrite : Prop :=
  (∀ a v s, ExactSchedule s → busPermitted .write s = true →
    let u : State := { transacted .write [commandByte true a, v] 0 [] s with writeOracle := s.writeOracle.tail }
    exec (.script a v) s = .next (
      if s.writeOracle.headD (.ok ()) = .ok () then
        { u with seqPc := ⟨s.seqPc.step, s.seqPc.idx + 1, s.seqPc.attempt⟩ }
      else failedAt s.seqPc u)) ∧
  (∀ sc s, s.params.wf = true → s.runSensor = true → s.sensorPos = .idle → sc ∈ [.first, .repair, .close] →
    s.seqPc.step = scriptStep sc →
    runItems [.sensorStep] s = .next (ranItems 1 { s with sensorPos := writePos sc s.seqPc.idx s })) ∧
  (∀ sc a v ts s, s.params.wf = true → s.runSensor = true →
    (∀ bytes, s.sensorPos = .bus (.entry sc a v) (.returned ts (.ok bytes)) →
      runItems [.sensorStep] s = .next (ranItems 1 { s with
        seqPc := ⟨s.seqPc.step, s.seqPc.idx + 1, s.seqPc.attempt⟩
        sensorPos := writePos sc (s.seqPc.idx + 1) s })) ∧
    (s.sensorPos = .bus (.entry sc a v) (.returned ts .fault) →
      runItems [.sensorStep] s = .next (ranItems 1 { failedAt s.seqPc s with
        sensorPos := if sc ∈ [.first, .repair, .close] then .boundary else .idle })))

/-- Script replay with every write answered `ok`: the entries from `SEQ_IDX` on, in order, each sent once, then what the
step does next; and step by step the same last assignments end a script (a step issued on its own: log 12;
41_sensor_driver.md R457, R459, R460). -/
def Obligations.ReplaySendsTheScript : Prop :=
  (∀ s, s.runSensor = true → s.sensorPos = .leave →
    (s.seqPc.step = .first →
      runItems [.sensorStep] s = .next (ranItems 1 { s with sensorPos := .idle, seqPc := ⟨.verify, 0, 0⟩ })) ∧
    (s.seqPc.step = .repair →
      runItems [.sensorStep] s =
        .next (ranItems 1 { s with sensorPos := .idle, seqPc := ⟨.close, 0, s.seqPc.attempt⟩ })) ∧
    (s.seqPc.step = .close →
      runItems [.sensorStep] s = .next (ranItems 1 { s with
        sensorPos := .idle
        drvState := if s.degraded = true then .degraded else .verified
        seqPc := ⟨.diag, 0, s.seqPc.attempt⟩ }))) ∧
  ∀ s, RunnerSchedule s → s.params.wf = true →
    (s.seqPc.step = .first →
      exec (.replay .first) s = .next
        { replayed (s.params.seqFirst.drop s.seqPc.idx) s with seqPc := ⟨.verify, 0, 0⟩ }) ∧
    (s.seqPc.step = .repair →
      exec .sRepair s = .next
        { replayed (s.params.seqRepair.drop s.seqPc.idx) s with seqPc := ⟨.close, 0, s.seqPc.attempt⟩ }) ∧
    (s.seqPc.step = .close →
      exec .sClose s = .next
        { replayed (s.params.seqClose.drop s.seqPc.idx) s with
          drvState := if s.degraded = true then .degraded else .verified
          seqPc := ⟨.diag, 0, s.seqPc.attempt⟩ }) ∧
    (∀ sc, sc ≠ .first → s.seqPc.step = scriptStep sc →
      exec (.replay sc) s = .next
        { replayed ((scriptOf s.params sc).drop s.seqPc.idx) s with
          seqPc := ⟨s.seqPc.step, max s.seqPc.idx (scriptOf s.params sc).length, s.seqPc.attempt⟩ })

/-- A replay in which the (k+1)-th write faults sends k+1 entries, raises TRANSPORT_FAULT_INIT at that entry and fails the
driver (a replay issued on its own: log 12; 41_sensor_driver.md R457, R462). -/
def Obligations.ReplayStopsAtAFault : Prop :=
  ∀ sc s k rest, ExactSchedule s → s.params.wf = true → s.seqPc.step = scriptStep sc → s.seqPc.idx = 0 →
    k < (scriptOf s.params sc).length → s.writeOracle = List.replicate k (.ok ()) ++ .fault :: rest →
    let t := failedAt ⟨s.seqPc.step, k, s.seqPc.attempt⟩
      { replayed ((scriptOf s.params sc).take (k + 1)) s with writeOracle := rest }
    exec (.replay sc) s = .next t ∧ (sc = .repair → exec .sRepair s = .next t) ∧ (sc = .close → exec .sClose s = .next t)

/-- The verification poll with every wait at its minimum: a read of 0x80 on attempt 60 or before ends it at `S_CLOSE`; sixty
other bytes raise VERIFY_TIMEOUT(60), degrade and go to `S_REPAIR`; a fault fails the driver. Step by step: the poll begins
with a wait from the end of the previous transaction, which ends after 1000 with the read; the read's byte ends the poll,
begins the next attempt's wait or exhausts it (the wait's start: log 16; a step issued on its own: log 12;
41_sensor_driver.md R456, R462). -/
def Obligations.VerifyPoll : Prop :=
  (∀ s, s.runSensor = true → s.seqPc.step = .verify →
    (s.sensorPos = .idle → s.seqPc.attempt < 60 →
      runItems [.sensorStep] s = .next (ranItems 1 { s with sensorPos := .pollWait (lastEnd s) })) ∧
    (∀ t0, s.sensorPos = .pollWait t0 → s.slacks = [] → s.params.wf = true →
      runItems [.sensorStep] s = .next (ranItems 1 (
        if elapsedSince s.now t0 < 1000 then s else { s with sensorPos := .bus .verify (.gap (lastEnd s)) }))) ∧
    (∀ ts b, s.sensorPos = .bus .verify (.returned ts (.ok [b])) → s.seqPc.attempt < 60 →
      runItems [.sensorStep] s = .next (ranItems 1 (
        if b = 0x80 then { s with sensorPos := .idle, seqPc := ⟨.close, 0, s.seqPc.attempt + 1⟩ }
        else if s.seqPc.attempt + 1 = 60 then
          { s with
            sensorPos := .idle, degraded := true, events := s.events ++ [.verifyTimeout 60], seqPc := ⟨.repair, 0, 60⟩ }
        else
          { s with
            sensorPos := .pollWait (lastEnd s), seqPc := ⟨.verify, s.seqPc.idx, s.seqPc.attempt + 1⟩ }))) ∧
    (∀ ts, s.sensorPos = .bus .verify (.returned ts .fault) →
      runItems [.sensorStep] s = .next (ranItems 1 { failedAt ⟨.verify, s.seqPc.idx, s.seqPc.attempt + 1⟩ s with
        sensorPos := .boundary }))) ∧
  ∀ s (bad : List Byte) (rest : List ReadAnswer), ExactSchedule s → s.params.wf = true → s.seqPc.step = .verify →
    (∀ b ∈ bad, b ≠ 0x80) →
    (s.seqPc.attempt + bad.length < 60 → s.oracle = bad.map .byte ++ .byte 0x80 :: rest →
      exec .sVerify s = .next { polled (bad ++ [0x80]) s with
        oracle := rest, seqPc := ⟨.close, 0, s.seqPc.attempt + bad.length + 1⟩ }) ∧
    (s.seqPc.attempt + bad.length = 60 → s.oracle = bad.map .byte ++ rest →
      exec .sVerify s = .next { polled bad s with
        oracle := rest, degraded := true, events := s.events ++ [.verifyTimeout 60], seqPc := ⟨.repair, 0, 60⟩ }) ∧
    (s.seqPc.attempt + bad.length < 60 → s.oracle = bad.map .byte ++ .fault :: rest →
      exec .sVerify s = .next (
        let u := polled bad s
        failedAt ⟨.verify, s.seqPc.idx, s.seqPc.attempt + bad.length + 1⟩
          { readFaulted s.params.verifyAddr { u with now := pollTime u } with oracle := rest }))

/-- The diagnostic reads with every wait at its minimum: one read of each address from `SEQ_IDX` on, its byte stored,
nothing compared; a fault fails the driver at its address. Step by step: a read's byte is stored and the next address's read
begins, or the step ends (a step issued on its own: log 12; 41_sensor_driver.md R458, R462). -/
def Obligations.DiagnosticReads : Prop :=
  (∀ s, s.params.wf = true → s.runSensor = true → s.seqPc.step = .diag →
    let next := fun (i : Nat) =>
      match s.params.diagAddr[i]? with
      | some a => SensorPos.bus (.diag a) (.gap (lastEnd s))
      | none => .leave
    (s.sensorPos = .idle →
      runItems [.sensorStep] s = .next (ranItems 1 { s with sensorPos := next s.seqPc.idx })) ∧
    (∀ a ts b, s.sensorPos = .bus (.diag a) (.returned ts (.ok [b])) →
      runItems [.sensorStep] s = .next (ranItems 1 { s with
        diag := s.diag.set s.seqPc.idx b
        seqPc := ⟨.diag, s.seqPc.idx + 1, s.seqPc.attempt⟩
        sensorPos := next (s.seqPc.idx + 1) })) ∧
    (∀ a ts, s.sensorPos = .bus (.diag a) (.returned ts .fault) →
      runItems [.sensorStep] s = .next (ranItems 1 { failedAt s.seqPc s with sensorPos := .boundary })) ∧
    (s.sensorPos = .leave →
      runItems [.sensorStep] s =
        .next (ranItems 1 { s with sensorPos := .idle, seqPc := ⟨.mvalid, 0, s.seqPc.attempt⟩ }))) ∧
  ∀ s (bytes : List Byte) (rest : List ReadAnswer), ExactSchedule s → s.params.wf = true → s.seqPc.step = .diag →
    s.diag.length = 5 →
    (s.seqPc.idx + bytes.length = 5 → s.oracle = bytes.map .byte ++ rest →
      exec .sDiag s = .next { readEach ((s.params.diagAddr.drop s.seqPc.idx).zip bytes) s with
        oracle := rest, diag := s.diag.take s.seqPc.idx ++ bytes, seqPc := ⟨.mvalid, 0, s.seqPc.attempt⟩ }) ∧
    (s.seqPc.idx + bytes.length < 5 → s.oracle = bytes.map .byte ++ .fault :: rest →
      ∃ a, s.params.diagAddr[s.seqPc.idx + bytes.length]? = some a ∧
        exec .sDiag s = .next (failedAt ⟨.diag, s.seqPc.idx + bytes.length, s.seqPc.attempt⟩
          { readFaulted a (readEach ((s.params.diagAddr.drop s.seqPc.idx).zip bytes) s) with
            oracle := rest
            diag := s.diag.take s.seqPc.idx ++ bytes ++ s.diag.drop (s.seqPc.idx + bytes.length) }))

/-- The whole bring-up with no transport fault and every wait at its minimum: the first script; the reads of `VERIFY_ADDR`
up to the first 0x80, at most sixty; the repair script if and only if all sixty read otherwise; the closing script; the five
diagnostic reads; nothing else. It ends in STREAMING with DEGRADED = 1 exactly when the repair ran; and the init command of
the board layer with the sensor task going on step of the sequencer by step ends the same; a shutdown request already made
stops the loop only at the end (for the board's command the model's choice, log 30) (41_sensor_driver.md R474,
46_poll_loop.md R706, 47_stimulus.md R757, 60_exceptions.md R852). -/
def Obligations.BringUpTraffic : Prop :=
  ∀ s (bad diag : List Byte) (repaired : Bool) (rest : List ReadAnswer),
    RunnerSchedule s → s.params.wf = true → s.runSensor = true → s.drvState = .unpowered → s.seqPc.step = .idle →
    s.sensorPos = .idle → s.diag.length = 5 → (∀ b ∈ bad, b ≠ 0x80) → diag.length = 5 →
    (if repaired = true then bad.length = 60 else bad.length < 60) →
    s.oracle = bad.map .byte ++ (if repaired = true then [] else [.byte 0x80]) ++ diag.map .byte ++ rest →
    let reads := if repaired = true then 60 else bad.length + 1
    ∃ t, exec .initStim s = .next t ∧
      (∃ l, t.wire = s.wire ++ l ∧
        sentBytes l =
          s.params.seqFirst.flatMap wordBytes ++
          List.replicate reads (commandByte false s.params.verifyAddr) ++
          (if repaired = true then s.params.seqRepair.flatMap wordBytes else []) ++
          s.params.seqClose.flatMap wordBytes ++
          s.params.diagAddr.map (commandByte false)) ∧
      t = { s with
        now := t.now, power := true, ncs := true, nreset := true, busLast := .read, busLastEnd := t.busLastEnd
        drvState := .streaming, degraded := repaired, diag := diag, seqPc := ⟨.stream, 0, reads⟩
        events := if repaired = true then s.events ++ [.verifyTimeout 60] else s.events
        oracle := rest, wire := t.wire, runSensor := !s.shutdownReq } ∧
      runItems (.board .init :: List.replicate (if repaired = true then 10 else 9) .sensor) s =
        .next (ranItems (if repaired = true then 11 else 10) t)

/-- Whatever the sensor answers and the other agents do, `INIT` ends in STREAMING at `S_STREAM` or in FAILED at `S_FAIL`
(46_poll_loop.md R706, 47_stimulus.md R757). -/
def Obligations.InitEndsStreamingOrFailed : Prop :=
  ∀ s t, exec .initStim s = .next t →
    (t.drvState = .streaming ∧ t.seqPc.step = .stream) ∨ (t.drvState = .failed ∧ t.seqPc.step = .fail)

/-! ### Capture, mode switch and the sensor cycle -/

/-- `CaptureBurst()` with every wait at its minimum: no sample for a motion byte 0x00, otherwise the little-endian deltas
with the time chip-select was asserted; a fault is recorded and gives no sample (issued on its own also after the loop has
stopped, the model's choice, log 32); and so the sensor task goes on, step by step, from the answer of a capture's burst
(41_sensor_driver.md R465, R467; 46_poll_loop.md R702). -/
def Obligations.CaptureReadsASample : Prop :=
  (∀ s ts, s.runSensor = true →
    (∀ b0 b1 b2 b3 b4 b5 b6 b7 b8 b9 b10 b11,
      s.sensorPos = .bus .capture (.returned ts (.ok [b0, b1, b2, b3, b4, b5, b6, b7, b8, b9, b10, b11])) →
      runItems [.sensorStep] s = .next (ranItems 1 { s with
        sensorPos := if b0 = 0x00 then .sleep else .push ⟨b3 ++ b2, b5 ++ b4, ts⟩ })) ∧
    (s.sensorPos = .bus .capture (.returned ts .fault) →
      runItems [.sensorStep] s = .next (ranItems 1 { s with
        events := s.events ++ [.transportFaultCapture], sensorPos := .sleep }))) ∧
  ∀ s, ExactSchedule s → s.drvState = .streaming → s.seqPc.step = .stream →
    (∀ b0 b1 b2 b3 b4 b5 b6 b7 b8 b9 b10 b11 rest,
      s.oracle = .burst [b0, b1, b2, b3, b4, b5, b6, b7, b8, b9, b10, b11] :: rest →
      exec .captureBurst s = .next
        { burstAnswered [b0, b1, b2, b3, b4, b5, b6, b7, b8, b9, b10, b11] s with
          oracle := rest
          ret := .capture (if b0 = 0x00 then none else some ⟨b3 ++ b2, b5 ++ b4, assertTime s⟩) }) ∧
    (∀ rest, s.oracle = .fault :: rest →
      exec .captureBurst s = .next
        { burstFaulted s with
          oracle := rest, events := s.events ++ [.transportFaultCapture], ret := .capture none })

/-- `ModeSwitch(m)` and `MODE m`: the table is replayed, also for the mode already active, and then the mode is `m`; a
transport fault in the replay fails the driver and keeps the old mode; outside STREAMING both are refused, and, as the model
reads the rules (log 22), after the loop has stopped; with a shutdown request that the loop has not yet acted on they run
(the model's choice, log 30). Step by step: the board's command begins the replay in `S_MODE`, and the last assignments end
it (41_sensor_driver.md R470, R472; 47_stimulus.md R758, R759; 60_exceptions.md R852). -/
def Obligations.ModeSwitchReplaysItsTable : Prop :=
  (∀ m s, RunnerSchedule s → s.params.wf = true → s.runSensor = true → s.drvState = .streaming →
    s.seqPc.step = .stream →
    let t : State :=
      { replayed (s.params.modeTable m) s with mode := m, seqPc := ⟨.stream, 0, s.seqPc.attempt⟩ }
    exec (.modeSwitch m) s = .next t ∧ exec (.mode m) s = .next t) ∧
  (∀ m s, s.runSensor = false ∨ s.drvState ≠ .streaming ∨ s.seqPc.step ≠ .stream →
    ∃ r, exec (.modeSwitch m) s = .refused r ∧ exec (.mode m) s = .refused r ∧
      (s.sensorPos = .idle → runItems [.board (.startMode m)] s = .refused r)) ∧
  (∀ m s k rest, ExactSchedule s → s.params.wf = true → s.runSensor = true → s.drvState = .streaming →
    s.seqPc.step = .stream → k < (s.params.modeTable m).length →
    s.writeOracle = List.replicate k (.ok ()) ++ .fault :: rest →
    let t := failedAt ⟨.mode, k, s.seqPc.attempt⟩
      { replayed ((s.params.modeTable m).take (k + 1)) s with writeOracle := rest }
    exec (.modeSwitch m) s = .next t ∧ exec (.mode m) s = .next t) ∧
  (∀ m s, s.params.wf = true → s.runSensor = true → s.drvState = .streaming → s.seqPc.step = .stream →
    s.sensorPos = .idle →
    runItems [.board (.startMode m)] s = .next (ranItems 1 { s with
      seqPc := ⟨.mode, 0, s.seqPc.attempt⟩, sensorPos := writePos (.mode m) 0 s })) ∧
  (∀ m s, s.runSensor = true → s.sensorPos = .switched m →
    runItems [.sensorStep] s = .next (ranItems 1 { s with
      mode := m, seqPc := ⟨.stream, 0, s.seqPc.attempt⟩, sensorPos := .idle }))

/-- A sensor cycle outside STREAMING drains the ring and captures nothing; `SCYCLE` takes no time for its sleep (log 21); a
stopped loop is refused, and inside a bring-up or a mode switch, where no cycle falls, a cycle run on its own is refused (as
the model has it, log 12; a stopped loop is reported first, log 31) (46_poll_loop.md R700 to R702, R705, R706, R730;
47_stimulus.md R756, R763; 70_reset_and_hazards.md R922). -/
def Obligations.CycleWithoutCapture : Prop :=
  (∀ s, RingOk s → ExactSchedule s → s.runSensor = true → s.seqPc.step ∈ [.idle, .stream, .fail] →
    s.drvState ≠ .streaming ∨ s.seqPc.step ≠ .stream →
    exec .scycle s = .next { s with
      loopStart := s.now, rbR := s.rbW, reports := s.reports ++ liveReports s, runSensor := !s.shutdownReq }) ∧
  (∀ s, s.runSensor = false →
    exec .scycle s = .refused (.loopStopped .sensor) ∧ exec .sensorCycle s = .refused (.loopStopped .sensor)) ∧
  (∀ s, s.runSensor = true → s.seqPc.step ∉ [.idle, .stream, .fail] →
    exec .scycle s = .refused .sensorBusy ∧ exec .sensorCycle s = .refused .sensorBusy)

/-- A sensor cycle in STREAMING first reports what was live before it, then captures; the new sample is pushed and not
reported in this cycle. Step by step: a cycle begins with its start time and its drain, the capture's burst is begun after
the drain in STREAMING only, and its sample is pushed before the sleep; a task at its boundary begins its cycle without
another test of `SHUTDOWN_REQ` (the model's choice, log 28) (46_poll_loop.md R700 to R702; 70_reset_and_hazards.md R915). -/
def Obligations.CyclePipelinesTheSample : Prop :=
  (∀ s, s.runSensor = true →
    (SensorAtBoundary s →
      runItems [.sensorStep] s = .next (ranItems 1 { s with loopStart := s.now, sensorPos := .drain })) ∧
    (s.sensorPos = .capture →
      runItems [.sensorStep] s = .next (ranItems 1 { s with
        sensorPos :=
          if s.drvState = .streaming ∧ s.seqPc.step = .stream then .bus .capture (.gap (lastEnd s)) else .sleep })) ∧
    (∀ x u, s.sensorPos = .push x → exec (.push x) s = .next u →
      runItems [.sensorStep] s = .next (ranItems 1 { u with sensorPos := .sleep }))) ∧
  ∀ s, RingOk s → ExactSchedule s → s.runSensor = true → s.drvState = .streaming → s.seqPc.step = .stream →
    (∀ b0 b1 b2 b3 b4 b5 b6 b7 b8 b9 b10 b11 rest,
      s.oracle = .burst [b0, b1, b2, b3, b4, b5, b6, b7, b8, b9, b10, b11] :: rest →
      let u : State :=
        { burstAnswered [b0, b1, b2, b3, b4, b5, b6, b7, b8, b9, b10, b11] s with
          oracle := rest, loopStart := s.now, rbR := s.rbW
          reports := s.reports ++ liveReports s, runSensor := !s.shutdownReq }
      exec .scycle s = .next (
        if b0 = 0x00 then u
        else { u with
          rb := s.rb.set s.rbW ⟨b3 ++ b2, b5 ++ b4, assertTime s⟩
          rbW := (s.rbW + 1) % s.params.rbN })) ∧
    (∀ rest, s.oracle = .fault :: rest →
      exec .scycle s = .next
        { burstFaulted s with
          oracle := rest, loopStart := s.now, rbR := s.rbW, events := s.events ++ [.transportFaultCapture]
          reports := s.reports ++ liveReports s, runSensor := !s.shutdownReq })

/-- `SensorCycle` is the cycle of `SCYCLE` with its sleep: what is left of `T_PERIOD` = 250 since its start, nothing after
an overrun; and so does the sensor task sleep, step by step, before its boundary's one test, none being made before the
cycle (the model's choice, log 28) (46_poll_loop.md R704, R705, R730). -/
def Obligations.SensorCycleSleepsTheRemainder : Prop :=
  (∀ (s : State), s.runSensor = true →
    (s.sensorPos = .sleep →
      runItems [.sensorStep] s = .next (ranItems 1 { s with
        sensorPos :=
          if elapsedSince s.now s.loopStart < 250 then .sleeping s.now (250 - elapsedSince s.now s.loopStart)
          else .boundary })) ∧
    (∀ t0 T, s.sensorPos = .sleeping t0 T → s.slacks = [] →
      runItems [.sensorStep] s =
        .next (ranItems 1 (if elapsedSince s.now t0 < T then s else { s with sensorPos := .boundary }))) ∧
    (s.sensorPos = .boundary →
      runItems [.sensorStep] s = .next (ranItems 1 { s with sensorPos := .idle, runSensor := !s.shutdownReq }))) ∧
  ∀ (s : State), RingOk s → ExactSchedule s → s.runSensor = true → s.seqPc.step ∈ [.idle, .stream, .fail] →
    (s.drvState = .streaming → s.seqPc.step = .stream →
      ∃ rest, s.oracle = .fault :: rest ∨ ∃ bytes, bytes.length = 12 ∧ s.oracle = .burst bytes :: rest) →
    ∃ u, exec .scycle s = .next u ∧
      exec .sensorCycle s = .next { u with
        now := if elapsedSince u.now s.now < 250 then s.now + 250 else u.now }

/-! ### Shutdown -/

/-- `SHUT` requests shutdown and, every loop being at its sleep boundary, stops all three; a sensor task inside a bring-up
or another operation, or before its boundary's own test, is not stopped by it (the model's choice, log 13, where R759 clears
all three); a loop's own test at its boundary stops it exactly when shutdown is requested; after it the cycles, `INIT` and
`MODE` are refused, and the sensor task takes no step, the stopped loop being the reason reported (the model's choice, log
31); the test of a loop as an instruction is made wherever the task stands (log 12) (46_poll_loop.md R730, 47_stimulus.md
R759). -/
def Obligations.ShutdownStopsTheLoops : Prop :=
  (∀ s, ButtonAtBoundary s → ScrollAtBoundary s →
    (SensorAtBoundary s →
      exec .shut s = .next
        { s with shutdownReq := true, runSensor := false, runButton := false, runScroll := false }) ∧
    (¬ SensorAtBoundary s →
      exec .shut s = .next { s with shutdownReq := true, runButton := false, runScroll := false })) ∧
  (∀ s,
    exec (.shutdown .sensor) s = .next { s with runSensor := s.runSensor && !s.shutdownReq } ∧
    exec (.shutdown .button) s = .next { s with runButton := s.runButton && !s.shutdownReq } ∧
    exec (.shutdown .scroll) s = .next { s with runScroll := s.runScroll && !s.shutdownReq }) ∧
  (∀ s, RunEnded s →
    exec .btask s = .refused (.loopStopped .button) ∧ exec .stask s = .refused (.loopStopped .scroll) ∧
    exec .scycle s = .refused (.loopStopped .sensor) ∧ exec .initStim s = .refused (.loopStopped .sensor) ∧
    (∀ m, exec (.mode m) s = .refused (.loopStopped .sensor)) ∧
    runItems [.sensorStep] s = .refused (.loopStopped .sensor))

/-! ### Any schedule -/

/-- Nothing that the other agents do at step boundaries and during waits, and no length of a wait, keeps an operation from
completing (slacks and interludes, log 5 and log 7): the polls, the cycles, the ring operations and the steps of the
bring-up that need no answer; nor does a shutdown request that the loop has not yet acted on, for a mode switch (the model's
choice, log 30), a cycle (log 28) or a cycle that ends a sleep (log 13), nor a stopped loop for a step of the sequencer
issued on its own (log 12) (40_register_bus.md R426, R427; 42_ring_buffer.md R500, R505; 60_exceptions.md R820). -/
def Obligations.CompletesUnderAnySchedule : Prop :=
  (∀ b s, ∃ t, exec (.latchPoll b) s = .next t) ∧ (∀ a s, ∃ t, exec (.auxPoll a) s = .next t) ∧
  (∀ s, ∃ t, exec .scrollPoll s = .next t) ∧ (∀ x s, ∃ t, exec (.emitMotion x) s = .next t) ∧
  (∀ s, s.runButton = true → (∃ t, exec .btask s = .next t) ∧ ∃ t, exec .buttonCycle s = .next t) ∧
  (∀ s, s.runScroll = true → (∃ t, exec .stask s = .next t) ∧ ∃ t, exec .scrollCycle s = .next t) ∧
  (∀ s, RingOk s → (∃ t, exec .drain s = .next t) ∧ ∃ t, exec .draint s = .next t) ∧
  (∀ s, RingOk s → s.runSensor = true → s.seqPc.step ∈ [.idle, .stream, .fail] → s.drvState ≠ .streaming →
    (∃ t, exec .scycle s = .next t) ∧ ∃ t, exec .sensorCycle s = .next t) ∧
  (∀ s, s.seqPc.step = .wake → ∃ t, exec .sWake s = .next t) ∧
  (∀ s, s.seqPc.step = .ncsPulse → ∃ t, exec .sNcsPulse s = .next t) ∧
  (∀ s, s.seqPc.step = .resetPulse → ∃ t, exec .sResetPulse s = .next t) ∧
  (∀ s, s.seqPc.step = .settle → ∃ t, exec .sSettle s = .next t) ∧
  (∀ s, s.seqPc.step = .mvalid → ∃ t, exec .sMvalid s = .next t) ∧
  (∀ sc s, s.params.wf = true → s.seqPc.step = scriptStep sc → ∃ t, exec (.replay sc) s = .next t) ∧
  (∀ s, s.params.wf = true → s.seqPc.step = .repair → ∃ t, exec .sRepair s = .next t) ∧
  (∀ s, s.params.wf = true → s.seqPc.step = .close → ∃ t, exec .sClose s = .next t) ∧
  (∀ m s, s.params.wf = true → s.runSensor = true → s.drvState = .streaming → s.seqPc.step = .stream →
    (∃ t, exec (.modeSwitch m) s = .next t) ∧ ∃ t, exec (.mode m) s = .next t)
end

