-- ==== Sys2Proof/Laws/State.lean ====
section
/-! SUPPORT. What each named update of the state leaves in each field: one lemma per field per update, so that no later proof
unfolds a record update. -/

namespace Sys2Proof.Machine

/-! ### `emitReport` -/

section
variable (r : Report) (s : State)

@[simp] theorem emitReport_params : (emitReport r s).params = s.params := rfl
@[simp] theorem emitReport_now : (emitReport r s).now = s.now := rfl
@[simp] theorem emitReport_pins : (emitReport r s).pins = s.pins := rfl
@[simp] theorem emitReport_irqPending : (emitReport r s).irqPending = s.irqPending := rfl
@[simp] theorem emitReport_power : (emitReport r s).power = s.power := rfl
@[simp] theorem emitReport_ncs : (emitReport r s).ncs = s.ncs := rfl
@[simp] theorem emitReport_nreset : (emitReport r s).nreset = s.nreset := rfl
@[simp] theorem emitReport_busLast : (emitReport r s).busLast = s.busLast := rfl
@[simp] theorem emitReport_busLastEnd : (emitReport r s).busLastEnd = s.busLastEnd := rfl
@[simp] theorem emitReport_busCorrupt : (emitReport r s).busCorrupt = s.busCorrupt := rfl
@[simp] theorem emitReport_drvState : (emitReport r s).drvState = s.drvState := rfl
@[simp] theorem emitReport_degraded : (emitReport r s).degraded = s.degraded := rfl
@[simp] theorem emitReport_mode : (emitReport r s).mode = s.mode := rfl
@[simp] theorem emitReport_diag : (emitReport r s).diag = s.diag := rfl
@[simp] theorem emitReport_rb : (emitReport r s).rb = s.rb := rfl
@[simp] theorem emitReport_rbW : (emitReport r s).rbW = s.rbW := rfl
@[simp] theorem emitReport_rbR : (emitReport r s).rbR = s.rbR := rfl
@[simp] theorem emitReport_ovfCount : (emitReport r s).ovfCount = s.ovfCount := rfl
@[simp] theorem emitReport_seqPc : (emitReport r s).seqPc = s.seqPc := rfl
@[simp] theorem emitReport_mlState : (emitReport r s).mlState = s.mlState := rfl
@[simp] theorem emitReport_mlFlag : (emitReport r s).mlFlag = s.mlFlag := rfl
@[simp] theorem emitReport_axState : (emitReport r s).axState = s.axState := rfl
@[simp] theorem emitReport_axEvent : (emitReport r s).axEvent = s.axEvent := rfl
@[simp] theorem emitReport_axConfirm : (emitReport r s).axConfirm = s.axConfirm := rfl
@[simp] theorem emitReport_axHoldTs : (emitReport r s).axHoldTs = s.axHoldTs := rfl
@[simp] theorem emitReport_scPhaseA : (emitReport r s).scPhaseA = s.scPhaseA := rfl
@[simp] theorem emitReport_scPhaseB : (emitReport r s).scPhaseB = s.scPhaseB := rfl
@[simp] theorem emitReport_scDir : (emitReport r s).scDir = s.scDir := rfl
@[simp] theorem emitReport_scSpeed : (emitReport r s).scSpeed = s.scSpeed := rfl
@[simp] theorem emitReport_scStopped : (emitReport r s).scStopped = s.scStopped := rfl
@[simp] theorem emitReport_scEvent : (emitReport r s).scEvent = s.scEvent := rfl
@[simp] theorem emitReport_loopStart : (emitReport r s).loopStart = s.loopStart := rfl
@[simp] theorem emitReport_shutdownReq : (emitReport r s).shutdownReq = s.shutdownReq := rfl
@[simp] theorem emitReport_runSensor : (emitReport r s).runSensor = s.runSensor := rfl
@[simp] theorem emitReport_runButton : (emitReport r s).runButton = s.runButton := rfl
@[simp] theorem emitReport_runScroll : (emitReport r s).runScroll = s.runScroll := rfl
@[simp] theorem emitReport_reports : (emitReport r s).reports = s.reports ++ [r] := rfl
@[simp] theorem emitReport_events : (emitReport r s).events = s.events := rfl
@[simp] theorem emitReport_sensorPos : (emitReport r s).sensorPos = s.sensorPos := rfl
@[simp] theorem emitReport_buttonK : (emitReport r s).buttonK = s.buttonK := rfl
@[simp] theorem emitReport_buttonSleep : (emitReport r s).buttonSleep = s.buttonSleep := rfl
@[simp] theorem emitReport_scrollK : (emitReport r s).scrollK = s.scrollK := rfl
@[simp] theorem emitReport_scrollSleep : (emitReport r s).scrollSleep = s.scrollSleep := rfl
@[simp] theorem emitReport_oracle : (emitReport r s).oracle = s.oracle := rfl
@[simp] theorem emitReport_writeOracle : (emitReport r s).writeOracle = s.writeOracle := rfl
@[simp] theorem emitReport_slacks : (emitReport r s).slacks = s.slacks := rfl
@[simp] theorem emitReport_interludes : (emitReport r s).interludes = s.interludes := rfl
@[simp] theorem emitReport_wire : (emitReport r s).wire = s.wire := rfl
@[simp] theorem emitReport_ret : (emitReport r s).ret = s.ret := rfl
@[simp] theorem emitReport_agenda : (emitReport r s).agenda = s.agenda := rfl
@[simp] theorem emitReport_pos : (emitReport r s).pos = s.pos := rfl
@[simp] theorem emitReport_ended : (emitReport r s).ended = s.ended := rfl

end

/-! ### `raiseEvent` -/

section
variable (e : Event) (s : State)

@[simp] theorem raiseEvent_params : (raiseEvent e s).params = s.params := rfl
@[simp] theorem raiseEvent_now : (raiseEvent e s).now = s.now := rfl
@[simp] theorem raiseEvent_pins : (raiseEvent e s).pins = s.pins := rfl
@[simp] theorem raiseEvent_irqPending : (raiseEvent e s).irqPending = s.irqPending := rfl
@[simp] theorem raiseEvent_power : (raiseEvent e s).power = s.power := rfl
@[simp] theorem raiseEvent_ncs : (raiseEvent e s).ncs = s.ncs := rfl
@[simp] theorem raiseEvent_nreset : (raiseEvent e s).nreset = s.nreset := rfl
@[simp] theorem raiseEvent_busLast : (raiseEvent e s).busLast = s.busLast := rfl
@[simp] theorem raiseEvent_busLastEnd : (raiseEvent e s).busLastEnd = s.busLastEnd := rfl
@[simp] theorem raiseEvent_busCorrupt : (raiseEvent e s).busCorrupt = s.busCorrupt := rfl
@[simp] theorem raiseEvent_drvState : (raiseEvent e s).drvState = s.drvState := rfl
@[simp] theorem raiseEvent_degraded : (raiseEvent e s).degraded = s.degraded := rfl
@[simp] theorem raiseEvent_mode : (raiseEvent e s).mode = s.mode := rfl
@[simp] theorem raiseEvent_diag : (raiseEvent e s).diag = s.diag := rfl
@[simp] theorem raiseEvent_rb : (raiseEvent e s).rb = s.rb := rfl
@[simp] theorem raiseEvent_rbW : (raiseEvent e s).rbW = s.rbW := rfl
@[simp] theorem raiseEvent_rbR : (raiseEvent e s).rbR = s.rbR := rfl
@[simp] theorem raiseEvent_ovfCount : (raiseEvent e s).ovfCount = s.ovfCount := rfl
@[simp] theorem raiseEvent_seqPc : (raiseEvent e s).seqPc = s.seqPc := rfl
@[simp] theorem raiseEvent_mlState : (raiseEvent e s).mlState = s.mlState := rfl
@[simp] theorem raiseEvent_mlFlag : (raiseEvent e s).mlFlag = s.mlFlag := rfl
@[simp] theorem raiseEvent_axState : (raiseEvent e s).axState = s.axState := rfl
@[simp] theorem raiseEvent_axEvent : (raiseEvent e s).axEvent = s.axEvent := rfl
@[simp] theorem raiseEvent_axConfirm : (raiseEvent e s).axConfirm = s.axConfirm := rfl
@[simp] theorem raiseEvent_axHoldTs : (raiseEvent e s).axHoldTs = s.axHoldTs := rfl
@[simp] theorem raiseEvent_scPhaseA : (raiseEvent e s).scPhaseA = s.scPhaseA := rfl
@[simp] theorem raiseEvent_scPhaseB : (raiseEvent e s).scPhaseB = s.scPhaseB := rfl
@[simp] theorem raiseEvent_scDir : (raiseEvent e s).scDir = s.scDir := rfl
@[simp] theorem raiseEvent_scSpeed : (raiseEvent e s).scSpeed = s.scSpeed := rfl
@[simp] theorem raiseEvent_scStopped : (raiseEvent e s).scStopped = s.scStopped := rfl
@[simp] theorem raiseEvent_scEvent : (raiseEvent e s).scEvent = s.scEvent := rfl
@[simp] theorem raiseEvent_loopStart : (raiseEvent e s).loopStart = s.loopStart := rfl
@[simp] theorem raiseEvent_shutdownReq : (raiseEvent e s).shutdownReq = s.shutdownReq := rfl
@[simp] theorem raiseEvent_runSensor : (raiseEvent e s).runSensor = s.runSensor := rfl
@[simp] theorem raiseEvent_runButton : (raiseEvent e s).runButton = s.runButton := rfl
@[simp] theorem raiseEvent_runScroll : (raiseEvent e s).runScroll = s.runScroll := rfl
@[simp] theorem raiseEvent_reports : (raiseEvent e s).reports = s.reports := rfl
@[simp] theorem raiseEvent_events : (raiseEvent e s).events = s.events ++ [e] := rfl
@[simp] theorem raiseEvent_sensorPos : (raiseEvent e s).sensorPos = s.sensorPos := rfl
@[simp] theorem raiseEvent_buttonK : (raiseEvent e s).buttonK = s.buttonK := rfl
@[simp] theorem raiseEvent_buttonSleep : (raiseEvent e s).buttonSleep = s.buttonSleep := rfl
@[simp] theorem raiseEvent_scrollK : (raiseEvent e s).scrollK = s.scrollK := rfl
@[simp] theorem raiseEvent_scrollSleep : (raiseEvent e s).scrollSleep = s.scrollSleep := rfl
@[simp] theorem raiseEvent_oracle : (raiseEvent e s).oracle = s.oracle := rfl
@[simp] theorem raiseEvent_writeOracle : (raiseEvent e s).writeOracle = s.writeOracle := rfl
@[simp] theorem raiseEvent_slacks : (raiseEvent e s).slacks = s.slacks := rfl
@[simp] theorem raiseEvent_interludes : (raiseEvent e s).interludes = s.interludes := rfl
@[simp] theorem raiseEvent_wire : (raiseEvent e s).wire = s.wire := rfl
@[simp] theorem raiseEvent_ret : (raiseEvent e s).ret = s.ret := rfl
@[simp] theorem raiseEvent_agenda : (raiseEvent e s).agenda = s.agenda := rfl
@[simp] theorem raiseEvent_pos : (raiseEvent e s).pos = s.pos := rfl
@[simp] theorem raiseEvent_ended : (raiseEvent e s).ended = s.ended := rfl

end

/-! ### `setRet` -/

section
variable (r : Ret) (s : State)

@[simp] theorem setRet_params : (setRet r s).params = s.params := rfl
@[simp] theorem setRet_now : (setRet r s).now = s.now := rfl
@[simp] theorem setRet_pins : (setRet r s).pins = s.pins := rfl
@[simp] theorem setRet_irqPending : (setRet r s).irqPending = s.irqPending := rfl
@[simp] theorem setRet_power : (setRet r s).power = s.power := rfl
@[simp] theorem setRet_ncs : (setRet r s).ncs = s.ncs := rfl
@[simp] theorem setRet_nreset : (setRet r s).nreset = s.nreset := rfl
@[simp] theorem setRet_busLast : (setRet r s).busLast = s.busLast := rfl
@[simp] theorem setRet_busLastEnd : (setRet r s).busLastEnd = s.busLastEnd := rfl
@[simp] theorem setRet_busCorrupt : (setRet r s).busCorrupt = s.busCorrupt := rfl
@[simp] theorem setRet_drvState : (setRet r s).drvState = s.drvState := rfl
@[simp] theorem setRet_degraded : (setRet r s).degraded = s.degraded := rfl
@[simp] theorem setRet_mode : (setRet r s).mode = s.mode := rfl
@[simp] theorem setRet_diag : (setRet r s).diag = s.diag := rfl
@[simp] theorem setRet_rb : (setRet r s).rb = s.rb := rfl
@[simp] theorem setRet_rbW : (setRet r s).rbW = s.rbW := rfl
@[simp] theorem setRet_rbR : (setRet r s).rbR = s.rbR := rfl
@[simp] theorem setRet_ovfCount : (setRet r s).ovfCount = s.ovfCount := rfl
@[simp] theorem setRet_seqPc : (setRet r s).seqPc = s.seqPc := rfl
@[simp] theorem setRet_mlState : (setRet r s).mlState = s.mlState := rfl
@[simp] theorem setRet_mlFlag : (setRet r s).mlFlag = s.mlFlag := rfl
@[simp] theorem setRet_axState : (setRet r s).axState = s.axState := rfl
@[simp] theorem setRet_axEvent : (setRet r s).axEvent = s.axEvent := rfl
@[simp] theorem setRet_axConfirm : (setRet r s).axConfirm = s.axConfirm := rfl
@[simp] theorem setRet_axHoldTs : (setRet r s).axHoldTs = s.axHoldTs := rfl
@[simp] theorem setRet_scPhaseA : (setRet r s).scPhaseA = s.scPhaseA := rfl
@[simp] theorem setRet_scPhaseB : (setRet r s).scPhaseB = s.scPhaseB := rfl
@[simp] theorem setRet_scDir : (setRet r s).scDir = s.scDir := rfl
@[simp] theorem setRet_scSpeed : (setRet r s).scSpeed = s.scSpeed := rfl
@[simp] theorem setRet_scStopped : (setRet r s).scStopped = s.scStopped := rfl
@[simp] theorem setRet_scEvent : (setRet r s).scEvent = s.scEvent := rfl
@[simp] theorem setRet_loopStart : (setRet r s).loopStart = s.loopStart := rfl
@[simp] theorem setRet_shutdownReq : (setRet r s).shutdownReq = s.shutdownReq := rfl
@[simp] theorem setRet_runSensor : (setRet r s).runSensor = s.runSensor := rfl
@[simp] theorem setRet_runButton : (setRet r s).runButton = s.runButton := rfl
@[simp] theorem setRet_runScroll : (setRet r s).runScroll = s.runScroll := rfl
@[simp] theorem setRet_reports : (setRet r s).reports = s.reports := rfl
@[simp] theorem setRet_events : (setRet r s).events = s.events := rfl
@[simp] theorem setRet_sensorPos : (setRet r s).sensorPos = s.sensorPos := rfl
@[simp] theorem setRet_buttonK : (setRet r s).buttonK = s.buttonK := rfl
@[simp] theorem setRet_buttonSleep : (setRet r s).buttonSleep = s.buttonSleep := rfl
@[simp] theorem setRet_scrollK : (setRet r s).scrollK = s.scrollK := rfl
@[simp] theorem setRet_scrollSleep : (setRet r s).scrollSleep = s.scrollSleep := rfl
@[simp] theorem setRet_oracle : (setRet r s).oracle = s.oracle := rfl
@[simp] theorem setRet_writeOracle : (setRet r s).writeOracle = s.writeOracle := rfl
@[simp] theorem setRet_slacks : (setRet r s).slacks = s.slacks := rfl
@[simp] theorem setRet_interludes : (setRet r s).interludes = s.interludes := rfl
@[simp] theorem setRet_wire : (setRet r s).wire = s.wire := rfl
@[simp] theorem setRet_ret : (setRet r s).ret = r := rfl
@[simp] theorem setRet_agenda : (setRet r s).agenda = s.agenda := rfl
@[simp] theorem setRet_pos : (setRet r s).pos = s.pos := rfl
@[simp] theorem setRet_ended : (setRet r s).ended = s.ended := rfl

end

/-! ### `logWire` -/

section
variable (w : WireEvent) (s : State)

@[simp] theorem logWire_params : (logWire w s).params = s.params := rfl
@[simp] theorem logWire_now : (logWire w s).now = s.now := rfl
@[simp] theorem logWire_pins : (logWire w s).pins = s.pins := rfl
@[simp] theorem logWire_irqPending : (logWire w s).irqPending = s.irqPending := rfl
@[simp] theorem logWire_power : (logWire w s).power = s.power := rfl
@[simp] theorem logWire_ncs : (logWire w s).ncs = s.ncs := rfl
@[simp] theorem logWire_nreset : (logWire w s).nreset = s.nreset := rfl
@[simp] theorem logWire_busLast : (logWire w s).busLast = s.busLast := rfl
@[simp] theorem logWire_busLastEnd : (logWire w s).busLastEnd = s.busLastEnd := rfl
@[simp] theorem logWire_busCorrupt : (logWire w s).busCorrupt = s.busCorrupt := rfl
@[simp] theorem logWire_drvState : (logWire w s).drvState = s.drvState := rfl
@[simp] theorem logWire_degraded : (logWire w s).degraded = s.degraded := rfl
@[simp] theorem logWire_mode : (logWire w s).mode = s.mode := rfl
@[simp] theorem logWire_diag : (logWire w s).diag = s.diag := rfl
@[simp] theorem logWire_rb : (logWire w s).rb = s.rb := rfl
@[simp] theorem logWire_rbW : (logWire w s).rbW = s.rbW := rfl
@[simp] theorem logWire_rbR : (logWire w s).rbR = s.rbR := rfl
@[simp] theorem logWire_ovfCount : (logWire w s).ovfCount = s.ovfCount := rfl
@[simp] theorem logWire_seqPc : (logWire w s).seqPc = s.seqPc := rfl
@[simp] theorem logWire_mlState : (logWire w s).mlState = s.mlState := rfl
@[simp] theorem logWire_mlFlag : (logWire w s).mlFlag = s.mlFlag := rfl
@[simp] theorem logWire_axState : (logWire w s).axState = s.axState := rfl
@[simp] theorem logWire_axEvent : (logWire w s).axEvent = s.axEvent := rfl
@[simp] theorem logWire_axConfirm : (logWire w s).axConfirm = s.axConfirm := rfl
@[simp] theorem logWire_axHoldTs : (logWire w s).axHoldTs = s.axHoldTs := rfl
@[simp] theorem logWire_scPhaseA : (logWire w s).scPhaseA = s.scPhaseA := rfl
@[simp] theorem logWire_scPhaseB : (logWire w s).scPhaseB = s.scPhaseB := rfl
@[simp] theorem logWire_scDir : (logWire w s).scDir = s.scDir := rfl
@[simp] theorem logWire_scSpeed : (logWire w s).scSpeed = s.scSpeed := rfl
@[simp] theorem logWire_scStopped : (logWire w s).scStopped = s.scStopped := rfl
@[simp] theorem logWire_scEvent : (logWire w s).scEvent = s.scEvent := rfl
@[simp] theorem logWire_loopStart : (logWire w s).loopStart = s.loopStart := rfl
@[simp] theorem logWire_shutdownReq : (logWire w s).shutdownReq = s.shutdownReq := rfl
@[simp] theorem logWire_runSensor : (logWire w s).runSensor = s.runSensor := rfl
@[simp] theorem logWire_runButton : (logWire w s).runButton = s.runButton := rfl
@[simp] theorem logWire_runScroll : (logWire w s).runScroll = s.runScroll := rfl
@[simp] theorem logWire_reports : (logWire w s).reports = s.reports := rfl
@[simp] theorem logWire_events : (logWire w s).events = s.events := rfl
@[simp] theorem logWire_sensorPos : (logWire w s).sensorPos = s.sensorPos := rfl
@[simp] theorem logWire_buttonK : (logWire w s).buttonK = s.buttonK := rfl
@[simp] theorem logWire_buttonSleep : (logWire w s).buttonSleep = s.buttonSleep := rfl
@[simp] theorem logWire_scrollK : (logWire w s).scrollK = s.scrollK := rfl
@[simp] theorem logWire_scrollSleep : (logWire w s).scrollSleep = s.scrollSleep := rfl
@[simp] theorem logWire_oracle : (logWire w s).oracle = s.oracle := rfl
@[simp] theorem logWire_writeOracle : (logWire w s).writeOracle = s.writeOracle := rfl
@[simp] theorem logWire_slacks : (logWire w s).slacks = s.slacks := rfl
@[simp] theorem logWire_interludes : (logWire w s).interludes = s.interludes := rfl
@[simp] theorem logWire_wire : (logWire w s).wire = s.wire ++ [w] := rfl
@[simp] theorem logWire_ret : (logWire w s).ret = s.ret := rfl
@[simp] theorem logWire_agenda : (logWire w s).agenda = s.agenda := rfl
@[simp] theorem logWire_pos : (logWire w s).pos = s.pos := rfl
@[simp] theorem logWire_ended : (logWire w s).ended = s.ended := rfl

end

/-! ### `advance` -/

section
variable (n : Nat) (s : State)

@[simp] theorem advance_params : (advance n s).params = s.params := rfl
@[simp] theorem advance_now : (advance n s).now = s.now + BitVec.ofNat 32 n := rfl
@[simp] theorem advance_pins : (advance n s).pins = s.pins := rfl
@[simp] theorem advance_irqPending : (advance n s).irqPending = s.irqPending := rfl
@[simp] theorem advance_power : (advance n s).power = s.power := rfl
@[simp] theorem advance_ncs : (advance n s).ncs = s.ncs := rfl
@[simp] theorem advance_nreset : (advance n s).nreset = s.nreset := rfl
@[simp] theorem advance_busLast : (advance n s).busLast = s.busLast := rfl
@[simp] theorem advance_busLastEnd : (advance n s).busLastEnd = s.busLastEnd := rfl
@[simp] theorem advance_busCorrupt : (advance n s).busCorrupt = s.busCorrupt := rfl
@[simp] theorem advance_drvState : (advance n s).drvState = s.drvState := rfl
@[simp] theorem advance_degraded : (advance n s).degraded = s.degraded := rfl
@[simp] theorem advance_mode : (advance n s).mode = s.mode := rfl
@[simp] theorem advance_diag : (advance n s).diag = s.diag := rfl
@[simp] theorem advance_rb : (advance n s).rb = s.rb := rfl
@[simp] theorem advance_rbW : (advance n s).rbW = s.rbW := rfl
@[simp] theorem advance_rbR : (advance n s).rbR = s.rbR := rfl
@[simp] theorem advance_ovfCount : (advance n s).ovfCount = s.ovfCount := rfl
@[simp] theorem advance_seqPc : (advance n s).seqPc = s.seqPc := rfl
@[simp] theorem advance_mlState : (advance n s).mlState = s.mlState := rfl
@[simp] theorem advance_mlFlag : (advance n s).mlFlag = s.mlFlag := rfl
@[simp] theorem advance_axState : (advance n s).axState = s.axState := rfl
@[simp] theorem advance_axEvent : (advance n s).axEvent = s.axEvent := rfl
@[simp] theorem advance_axConfirm : (advance n s).axConfirm = s.axConfirm := rfl
@[simp] theorem advance_axHoldTs : (advance n s).axHoldTs = s.axHoldTs := rfl
@[simp] theorem advance_scPhaseA : (advance n s).scPhaseA = s.scPhaseA := rfl
@[simp] theorem advance_scPhaseB : (advance n s).scPhaseB = s.scPhaseB := rfl
@[simp] theorem advance_scDir : (advance n s).scDir = s.scDir := rfl
@[simp] theorem advance_scSpeed : (advance n s).scSpeed = s.scSpeed := rfl
@[simp] theorem advance_scStopped : (advance n s).scStopped = s.scStopped := rfl
@[simp] theorem advance_scEvent : (advance n s).scEvent = s.scEvent := rfl
@[simp] theorem advance_loopStart : (advance n s).loopStart = s.loopStart := rfl
@[simp] theorem advance_shutdownReq : (advance n s).shutdownReq = s.shutdownReq := rfl
@[simp] theorem advance_runSensor : (advance n s).runSensor = s.runSensor := rfl
@[simp] theorem advance_runButton : (advance n s).runButton = s.runButton := rfl
@[simp] theorem advance_runScroll : (advance n s).runScroll = s.runScroll := rfl
@[simp] theorem advance_reports : (advance n s).reports = s.reports := rfl
@[simp] theorem advance_events : (advance n s).events = s.events := rfl
@[simp] theorem advance_sensorPos : (advance n s).sensorPos = s.sensorPos := rfl
@[simp] theorem advance_buttonK : (advance n s).buttonK = s.buttonK := rfl
@[simp] theorem advance_buttonSleep : (advance n s).buttonSleep = s.buttonSleep := rfl
@[simp] theorem advance_scrollK : (advance n s).scrollK = s.scrollK := rfl
@[simp] theorem advance_scrollSleep : (advance n s).scrollSleep = s.scrollSleep := rfl
@[simp] theorem advance_oracle : (advance n s).oracle = s.oracle := rfl
@[simp] theorem advance_writeOracle : (advance n s).writeOracle = s.writeOracle := rfl
@[simp] theorem advance_slacks : (advance n s).slacks = s.slacks := rfl
@[simp] theorem advance_interludes : (advance n s).interludes = s.interludes := rfl
@[simp] theorem advance_wire : (advance n s).wire = s.wire := rfl
@[simp] theorem advance_ret : (advance n s).ret = s.ret := rfl
@[simp] theorem advance_agenda : (advance n s).agenda = s.agenda := rfl
@[simp] theorem advance_pos : (advance n s).pos = s.pos := rfl
@[simp] theorem advance_ended : (advance n s).ended = s.ended := rfl

end

/-! ### `setPin` -/

section
variable (p : Pin) (l : Level) (s : State)

@[simp] theorem setPin_params : (setPin p l s).params = s.params := rfl
@[simp] theorem setPin_now : (setPin p l s).now = s.now := rfl
@[simp] theorem setPin_pins : (setPin p l s).pins = perPinSet s.pins p l := rfl
@[simp] theorem setPin_irqPending : (setPin p l s).irqPending = s.irqPending := rfl
@[simp] theorem setPin_power : (setPin p l s).power = s.power := rfl
@[simp] theorem setPin_ncs : (setPin p l s).ncs = s.ncs := rfl
@[simp] theorem setPin_nreset : (setPin p l s).nreset = s.nreset := rfl
@[simp] theorem setPin_busLast : (setPin p l s).busLast = s.busLast := rfl
@[simp] theorem setPin_busLastEnd : (setPin p l s).busLastEnd = s.busLastEnd := rfl
@[simp] theorem setPin_busCorrupt : (setPin p l s).busCorrupt = s.busCorrupt := rfl
@[simp] theorem setPin_drvState : (setPin p l s).drvState = s.drvState := rfl
@[simp] theorem setPin_degraded : (setPin p l s).degraded = s.degraded := rfl
@[simp] theorem setPin_mode : (setPin p l s).mode = s.mode := rfl
@[simp] theorem setPin_diag : (setPin p l s).diag = s.diag := rfl
@[simp] theorem setPin_rb : (setPin p l s).rb = s.rb := rfl
@[simp] theorem setPin_rbW : (setPin p l s).rbW = s.rbW := rfl
@[simp] theorem setPin_rbR : (setPin p l s).rbR = s.rbR := rfl
@[simp] theorem setPin_ovfCount : (setPin p l s).ovfCount = s.ovfCount := rfl
@[simp] theorem setPin_seqPc : (setPin p l s).seqPc = s.seqPc := rfl
@[simp] theorem setPin_mlState : (setPin p l s).mlState = s.mlState := rfl
@[simp] theorem setPin_mlFlag : (setPin p l s).mlFlag = s.mlFlag := rfl
@[simp] theorem setPin_axState : (setPin p l s).axState = s.axState := rfl
@[simp] theorem setPin_axEvent : (setPin p l s).axEvent = s.axEvent := rfl
@[simp] theorem setPin_axConfirm : (setPin p l s).axConfirm = s.axConfirm := rfl
@[simp] theorem setPin_axHoldTs : (setPin p l s).axHoldTs = s.axHoldTs := rfl
@[simp] theorem setPin_scPhaseA : (setPin p l s).scPhaseA = s.scPhaseA := rfl
@[simp] theorem setPin_scPhaseB : (setPin p l s).scPhaseB = s.scPhaseB := rfl
@[simp] theorem setPin_scDir : (setPin p l s).scDir = s.scDir := rfl
@[simp] theorem setPin_scSpeed : (setPin p l s).scSpeed = s.scSpeed := rfl
@[simp] theorem setPin_scStopped : (setPin p l s).scStopped = s.scStopped := rfl
@[simp] theorem setPin_scEvent : (setPin p l s).scEvent = s.scEvent := rfl
@[simp] theorem setPin_loopStart : (setPin p l s).loopStart = s.loopStart := rfl
@[simp] theorem setPin_shutdownReq : (setPin p l s).shutdownReq = s.shutdownReq := rfl
@[simp] theorem setPin_runSensor : (setPin p l s).runSensor = s.runSensor := rfl
@[simp] theorem setPin_runButton : (setPin p l s).runButton = s.runButton := rfl
@[simp] theorem setPin_runScroll : (setPin p l s).runScroll = s.runScroll := rfl
@[simp] theorem setPin_reports : (setPin p l s).reports = s.reports := rfl
@[simp] theorem setPin_events : (setPin p l s).events = s.events := rfl
@[simp] theorem setPin_sensorPos : (setPin p l s).sensorPos = s.sensorPos := rfl
@[simp] theorem setPin_buttonK : (setPin p l s).buttonK = s.buttonK := rfl
@[simp] theorem setPin_buttonSleep : (setPin p l s).buttonSleep = s.buttonSleep := rfl
@[simp] theorem setPin_scrollK : (setPin p l s).scrollK = s.scrollK := rfl
@[simp] theorem setPin_scrollSleep : (setPin p l s).scrollSleep = s.scrollSleep := rfl
@[simp] theorem setPin_oracle : (setPin p l s).oracle = s.oracle := rfl
@[simp] theorem setPin_writeOracle : (setPin p l s).writeOracle = s.writeOracle := rfl
@[simp] theorem setPin_slacks : (setPin p l s).slacks = s.slacks := rfl
@[simp] theorem setPin_interludes : (setPin p l s).interludes = s.interludes := rfl
@[simp] theorem setPin_wire : (setPin p l s).wire = s.wire := rfl
@[simp] theorem setPin_ret : (setPin p l s).ret = s.ret := rfl
@[simp] theorem setPin_agenda : (setPin p l s).agenda = s.agenda := rfl
@[simp] theorem setPin_pos : (setPin p l s).pos = s.pos := rfl
@[simp] theorem setPin_ended : (setPin p l s).ended = s.ended := rfl

end

/-! ### `setPending` -/

section
variable (p : Pin) (v : Bool) (s : State)

@[simp] theorem setPending_params : (setPending p v s).params = s.params := rfl
@[simp] theorem setPending_now : (setPending p v s).now = s.now := rfl
@[simp] theorem setPending_pins : (setPending p v s).pins = s.pins := rfl
@[simp] theorem setPending_irqPending : (setPending p v s).irqPending = perPinSet s.irqPending p v := rfl
@[simp] theorem setPending_power : (setPending p v s).power = s.power := rfl
@[simp] theorem setPending_ncs : (setPending p v s).ncs = s.ncs := rfl
@[simp] theorem setPending_nreset : (setPending p v s).nreset = s.nreset := rfl
@[simp] theorem setPending_busLast : (setPending p v s).busLast = s.busLast := rfl
@[simp] theorem setPending_busLastEnd : (setPending p v s).busLastEnd = s.busLastEnd := rfl
@[simp] theorem setPending_busCorrupt : (setPending p v s).busCorrupt = s.busCorrupt := rfl
@[simp] theorem setPending_drvState : (setPending p v s).drvState = s.drvState := rfl
@[simp] theorem setPending_degraded : (setPending p v s).degraded = s.degraded := rfl
@[simp] theorem setPending_mode : (setPending p v s).mode = s.mode := rfl
@[simp] theorem setPending_diag : (setPending p v s).diag = s.diag := rfl
@[simp] theorem setPending_rb : (setPending p v s).rb = s.rb := rfl
@[simp] theorem setPending_rbW : (setPending p v s).rbW = s.rbW := rfl
@[simp] theorem setPending_rbR : (setPending p v s).rbR = s.rbR := rfl
@[simp] theorem setPending_ovfCount : (setPending p v s).ovfCount = s.ovfCount := rfl
@[simp] theorem setPending_seqPc : (setPending p v s).seqPc = s.seqPc := rfl
@[simp] theorem setPending_mlState : (setPending p v s).mlState = s.mlState := rfl
@[simp] theorem setPending_mlFlag : (setPending p v s).mlFlag = s.mlFlag := rfl
@[simp] theorem setPending_axState : (setPending p v s).axState = s.axState := rfl
@[simp] theorem setPending_axEvent : (setPending p v s).axEvent = s.axEvent := rfl
@[simp] theorem setPending_axConfirm : (setPending p v s).axConfirm = s.axConfirm := rfl
@[simp] theorem setPending_axHoldTs : (setPending p v s).axHoldTs = s.axHoldTs := rfl
@[simp] theorem setPending_scPhaseA : (setPending p v s).scPhaseA = s.scPhaseA := rfl
@[simp] theorem setPending_scPhaseB : (setPending p v s).scPhaseB = s.scPhaseB := rfl
@[simp] theorem setPending_scDir : (setPending p v s).scDir = s.scDir := rfl
@[simp] theorem setPending_scSpeed : (setPending p v s).scSpeed = s.scSpeed := rfl
@[simp] theorem setPending_scStopped : (setPending p v s).scStopped = s.scStopped := rfl
@[simp] theorem setPending_scEvent : (setPending p v s).scEvent = s.scEvent := rfl
@[simp] theorem setPending_loopStart : (setPending p v s).loopStart = s.loopStart := rfl
@[simp] theorem setPending_shutdownReq : (setPending p v s).shutdownReq = s.shutdownReq := rfl
@[simp] theorem setPending_runSensor : (setPending p v s).runSensor = s.runSensor := rfl
@[simp] theorem setPending_runButton : (setPending p v s).runButton = s.runButton := rfl
@[simp] theorem setPending_runScroll : (setPending p v s).runScroll = s.runScroll := rfl
@[simp] theorem setPending_reports : (setPending p v s).reports = s.reports := rfl
@[simp] theorem setPending_events : (setPending p v s).events = s.events := rfl
@[simp] theorem setPending_sensorPos : (setPending p v s).sensorPos = s.sensorPos := rfl
@[simp] theorem setPending_buttonK : (setPending p v s).buttonK = s.buttonK := rfl
@[simp] theorem setPending_buttonSleep : (setPending p v s).buttonSleep = s.buttonSleep := rfl
@[simp] theorem setPending_scrollK : (setPending p v s).scrollK = s.scrollK := rfl
@[simp] theorem setPending_scrollSleep : (setPending p v s).scrollSleep = s.scrollSleep := rfl
@[simp] theorem setPending_oracle : (setPending p v s).oracle = s.oracle := rfl
@[simp] theorem setPending_writeOracle : (setPending p v s).writeOracle = s.writeOracle := rfl
@[simp] theorem setPending_slacks : (setPending p v s).slacks = s.slacks := rfl
@[simp] theorem setPending_interludes : (setPending p v s).interludes = s.interludes := rfl
@[simp] theorem setPending_wire : (setPending p v s).wire = s.wire := rfl
@[simp] theorem setPending_ret : (setPending p v s).ret = s.ret := rfl
@[simp] theorem setPending_agenda : (setPending p v s).agenda = s.agenda := rfl
@[simp] theorem setPending_pos : (setPending p v s).pos = s.pos := rfl
@[simp] theorem setPending_ended : (setPending p v s).ended = s.ended := rfl

end

/-! ### `scrollEdge` -/

section
variable (d : ScrollDir) (s : State)

@[simp] theorem scrollEdge_params : (scrollEdge d s).params = s.params := rfl
@[simp] theorem scrollEdge_now : (scrollEdge d s).now = s.now := rfl
@[simp] theorem scrollEdge_pins : (scrollEdge d s).pins = s.pins := rfl
@[simp] theorem scrollEdge_irqPending : (scrollEdge d s).irqPending = s.irqPending := rfl
@[simp] theorem scrollEdge_power : (scrollEdge d s).power = s.power := rfl
@[simp] theorem scrollEdge_ncs : (scrollEdge d s).ncs = s.ncs := rfl
@[simp] theorem scrollEdge_nreset : (scrollEdge d s).nreset = s.nreset := rfl
@[simp] theorem scrollEdge_busLast : (scrollEdge d s).busLast = s.busLast := rfl
@[simp] theorem scrollEdge_busLastEnd : (scrollEdge d s).busLastEnd = s.busLastEnd := rfl
@[simp] theorem scrollEdge_busCorrupt : (scrollEdge d s).busCorrupt = s.busCorrupt := rfl
@[simp] theorem scrollEdge_drvState : (scrollEdge d s).drvState = s.drvState := rfl
@[simp] theorem scrollEdge_degraded : (scrollEdge d s).degraded = s.degraded := rfl
@[simp] theorem scrollEdge_mode : (scrollEdge d s).mode = s.mode := rfl
@[simp] theorem scrollEdge_diag : (scrollEdge d s).diag = s.diag := rfl
@[simp] theorem scrollEdge_rb : (scrollEdge d s).rb = s.rb := rfl
@[simp] theorem scrollEdge_rbW : (scrollEdge d s).rbW = s.rbW := rfl
@[simp] theorem scrollEdge_rbR : (scrollEdge d s).rbR = s.rbR := rfl
@[simp] theorem scrollEdge_ovfCount : (scrollEdge d s).ovfCount = s.ovfCount := rfl
@[simp] theorem scrollEdge_seqPc : (scrollEdge d s).seqPc = s.seqPc := rfl
@[simp] theorem scrollEdge_mlState : (scrollEdge d s).mlState = s.mlState := rfl
@[simp] theorem scrollEdge_mlFlag : (scrollEdge d s).mlFlag = s.mlFlag := rfl
@[simp] theorem scrollEdge_axState : (scrollEdge d s).axState = s.axState := rfl
@[simp] theorem scrollEdge_axEvent : (scrollEdge d s).axEvent = s.axEvent := rfl
@[simp] theorem scrollEdge_axConfirm : (scrollEdge d s).axConfirm = s.axConfirm := rfl
@[simp] theorem scrollEdge_axHoldTs : (scrollEdge d s).axHoldTs = s.axHoldTs := rfl
@[simp] theorem scrollEdge_scPhaseA : (scrollEdge d s).scPhaseA = pinLevel s .scrA := rfl
@[simp] theorem scrollEdge_scPhaseB : (scrollEdge d s).scPhaseB = pinLevel s .scrB := rfl
@[simp] theorem scrollEdge_scDir : (scrollEdge d s).scDir = d := rfl
@[simp] theorem scrollEdge_scSpeed : (scrollEdge d s).scSpeed = s.scSpeed := rfl
@[simp] theorem scrollEdge_scStopped : (scrollEdge d s).scStopped = s.scStopped := rfl
@[simp] theorem scrollEdge_scEvent : (scrollEdge d s).scEvent = true := rfl
@[simp] theorem scrollEdge_loopStart : (scrollEdge d s).loopStart = s.loopStart := rfl
@[simp] theorem scrollEdge_shutdownReq : (scrollEdge d s).shutdownReq = s.shutdownReq := rfl
@[simp] theorem scrollEdge_runSensor : (scrollEdge d s).runSensor = s.runSensor := rfl
@[simp] theorem scrollEdge_runButton : (scrollEdge d s).runButton = s.runButton := rfl
@[simp] theorem scrollEdge_runScroll : (scrollEdge d s).runScroll = s.runScroll := rfl
@[simp] theorem scrollEdge_reports : (scrollEdge d s).reports = s.reports := rfl
@[simp] theorem scrollEdge_events : (scrollEdge d s).events = s.events := rfl
@[simp] theorem scrollEdge_sensorPos : (scrollEdge d s).sensorPos = s.sensorPos := rfl
@[simp] theorem scrollEdge_buttonK : (scrollEdge d s).buttonK = s.buttonK := rfl
@[simp] theorem scrollEdge_buttonSleep : (scrollEdge d s).buttonSleep = s.buttonSleep := rfl
@[simp] theorem scrollEdge_scrollK : (scrollEdge d s).scrollK = s.scrollK := rfl
@[simp] theorem scrollEdge_scrollSleep : (scrollEdge d s).scrollSleep = s.scrollSleep := rfl
@[simp] theorem scrollEdge_oracle : (scrollEdge d s).oracle = s.oracle := rfl
@[simp] theorem scrollEdge_writeOracle : (scrollEdge d s).writeOracle = s.writeOracle := rfl
@[simp] theorem scrollEdge_slacks : (scrollEdge d s).slacks = s.slacks := rfl
@[simp] theorem scrollEdge_interludes : (scrollEdge d s).interludes = s.interludes := rfl
@[simp] theorem scrollEdge_wire : (scrollEdge d s).wire = s.wire := rfl
@[simp] theorem scrollEdge_ret : (scrollEdge d s).ret = s.ret := rfl
@[simp] theorem scrollEdge_agenda : (scrollEdge d s).agenda = s.agenda := rfl
@[simp] theorem scrollEdge_pos : (scrollEdge d s).pos = s.pos := rfl
@[simp] theorem scrollEdge_ended : (scrollEdge d s).ended = s.ended := rfl

end

/-! ### `reportButtons` -/

section
variable  (s : State)

@[simp] theorem reportButtons_params : (reportButtons s).params = s.params := rfl
@[simp] theorem reportButtons_now : (reportButtons s).now = s.now := rfl
@[simp] theorem reportButtons_pins : (reportButtons s).pins = s.pins := rfl
@[simp] theorem reportButtons_irqPending : (reportButtons s).irqPending = s.irqPending := rfl
@[simp] theorem reportButtons_power : (reportButtons s).power = s.power := rfl
@[simp] theorem reportButtons_ncs : (reportButtons s).ncs = s.ncs := rfl
@[simp] theorem reportButtons_nreset : (reportButtons s).nreset = s.nreset := rfl
@[simp] theorem reportButtons_busLast : (reportButtons s).busLast = s.busLast := rfl
@[simp] theorem reportButtons_busLastEnd : (reportButtons s).busLastEnd = s.busLastEnd := rfl
@[simp] theorem reportButtons_busCorrupt : (reportButtons s).busCorrupt = s.busCorrupt := rfl
@[simp] theorem reportButtons_drvState : (reportButtons s).drvState = s.drvState := rfl
@[simp] theorem reportButtons_degraded : (reportButtons s).degraded = s.degraded := rfl
@[simp] theorem reportButtons_mode : (reportButtons s).mode = s.mode := rfl
@[simp] theorem reportButtons_diag : (reportButtons s).diag = s.diag := rfl
@[simp] theorem reportButtons_rb : (reportButtons s).rb = s.rb := rfl
@[simp] theorem reportButtons_rbW : (reportButtons s).rbW = s.rbW := rfl
@[simp] theorem reportButtons_rbR : (reportButtons s).rbR = s.rbR := rfl
@[simp] theorem reportButtons_ovfCount : (reportButtons s).ovfCount = s.ovfCount := rfl
@[simp] theorem reportButtons_seqPc : (reportButtons s).seqPc = s.seqPc := rfl
@[simp] theorem reportButtons_mlState : (reportButtons s).mlState = s.mlState := rfl
@[simp] theorem reportButtons_mlFlag : (reportButtons s).mlFlag = s.mlFlag := rfl
@[simp] theorem reportButtons_axState : (reportButtons s).axState = s.axState := rfl
@[simp] theorem reportButtons_axEvent : (reportButtons s).axEvent = s.axEvent := rfl
@[simp] theorem reportButtons_axConfirm : (reportButtons s).axConfirm = s.axConfirm := rfl
@[simp] theorem reportButtons_axHoldTs : (reportButtons s).axHoldTs = s.axHoldTs := rfl
@[simp] theorem reportButtons_scPhaseA : (reportButtons s).scPhaseA = s.scPhaseA := rfl
@[simp] theorem reportButtons_scPhaseB : (reportButtons s).scPhaseB = s.scPhaseB := rfl
@[simp] theorem reportButtons_scDir : (reportButtons s).scDir = s.scDir := rfl
@[simp] theorem reportButtons_scSpeed : (reportButtons s).scSpeed = s.scSpeed := rfl
@[simp] theorem reportButtons_scStopped : (reportButtons s).scStopped = s.scStopped := rfl
@[simp] theorem reportButtons_scEvent : (reportButtons s).scEvent = s.scEvent := rfl
@[simp] theorem reportButtons_loopStart : (reportButtons s).loopStart = s.loopStart := rfl
@[simp] theorem reportButtons_shutdownReq : (reportButtons s).shutdownReq = s.shutdownReq := rfl
@[simp] theorem reportButtons_runSensor : (reportButtons s).runSensor = s.runSensor := rfl
@[simp] theorem reportButtons_runButton : (reportButtons s).runButton = s.runButton := rfl
@[simp] theorem reportButtons_runScroll : (reportButtons s).runScroll = s.runScroll := rfl
@[simp] theorem reportButtons_reports : (reportButtons s).reports = s.reports ++ [buttonReport (buttonMask s)] := rfl
@[simp] theorem reportButtons_events : (reportButtons s).events = s.events := rfl
@[simp] theorem reportButtons_sensorPos : (reportButtons s).sensorPos = s.sensorPos := rfl
@[simp] theorem reportButtons_buttonK : (reportButtons s).buttonK = s.buttonK := rfl
@[simp] theorem reportButtons_buttonSleep : (reportButtons s).buttonSleep = s.buttonSleep := rfl
@[simp] theorem reportButtons_scrollK : (reportButtons s).scrollK = s.scrollK := rfl
@[simp] theorem reportButtons_scrollSleep : (reportButtons s).scrollSleep = s.scrollSleep := rfl
@[simp] theorem reportButtons_oracle : (reportButtons s).oracle = s.oracle := rfl
@[simp] theorem reportButtons_writeOracle : (reportButtons s).writeOracle = s.writeOracle := rfl
@[simp] theorem reportButtons_slacks : (reportButtons s).slacks = s.slacks := rfl
@[simp] theorem reportButtons_interludes : (reportButtons s).interludes = s.interludes := rfl
@[simp] theorem reportButtons_wire : (reportButtons s).wire = s.wire := rfl
@[simp] theorem reportButtons_ret : (reportButtons s).ret = s.ret := rfl
@[simp] theorem reportButtons_agenda : (reportButtons s).agenda = s.agenda := rfl
@[simp] theorem reportButtons_pos : (reportButtons s).pos = s.pos := rfl
@[simp] theorem reportButtons_ended : (reportButtons s).ended = s.ended := rfl

end

/-! ### `reportWheel` -/

section
variable (d : ScrollDir) (s : State)

@[simp] theorem reportWheel_params : (reportWheel d s).params = s.params := rfl
@[simp] theorem reportWheel_now : (reportWheel d s).now = s.now := rfl
@[simp] theorem reportWheel_pins : (reportWheel d s).pins = s.pins := rfl
@[simp] theorem reportWheel_irqPending : (reportWheel d s).irqPending = s.irqPending := rfl
@[simp] theorem reportWheel_power : (reportWheel d s).power = s.power := rfl
@[simp] theorem reportWheel_ncs : (reportWheel d s).ncs = s.ncs := rfl
@[simp] theorem reportWheel_nreset : (reportWheel d s).nreset = s.nreset := rfl
@[simp] theorem reportWheel_busLast : (reportWheel d s).busLast = s.busLast := rfl
@[simp] theorem reportWheel_busLastEnd : (reportWheel d s).busLastEnd = s.busLastEnd := rfl
@[simp] theorem reportWheel_busCorrupt : (reportWheel d s).busCorrupt = s.busCorrupt := rfl
@[simp] theorem reportWheel_drvState : (reportWheel d s).drvState = s.drvState := rfl
@[simp] theorem reportWheel_degraded : (reportWheel d s).degraded = s.degraded := rfl
@[simp] theorem reportWheel_mode : (reportWheel d s).mode = s.mode := rfl
@[simp] theorem reportWheel_diag : (reportWheel d s).diag = s.diag := rfl
@[simp] theorem reportWheel_rb : (reportWheel d s).rb = s.rb := rfl
@[simp] theorem reportWheel_rbW : (reportWheel d s).rbW = s.rbW := rfl
@[simp] theorem reportWheel_rbR : (reportWheel d s).rbR = s.rbR := rfl
@[simp] theorem reportWheel_ovfCount : (reportWheel d s).ovfCount = s.ovfCount := rfl
@[simp] theorem reportWheel_seqPc : (reportWheel d s).seqPc = s.seqPc := rfl
@[simp] theorem reportWheel_mlState : (reportWheel d s).mlState = s.mlState := rfl
@[simp] theorem reportWheel_mlFlag : (reportWheel d s).mlFlag = s.mlFlag := rfl
@[simp] theorem reportWheel_axState : (reportWheel d s).axState = s.axState := rfl
@[simp] theorem reportWheel_axEvent : (reportWheel d s).axEvent = s.axEvent := rfl
@[simp] theorem reportWheel_axConfirm : (reportWheel d s).axConfirm = s.axConfirm := rfl
@[simp] theorem reportWheel_axHoldTs : (reportWheel d s).axHoldTs = s.axHoldTs := rfl
@[simp] theorem reportWheel_scPhaseA : (reportWheel d s).scPhaseA = s.scPhaseA := rfl
@[simp] theorem reportWheel_scPhaseB : (reportWheel d s).scPhaseB = s.scPhaseB := rfl
@[simp] theorem reportWheel_scDir : (reportWheel d s).scDir = s.scDir := rfl
@[simp] theorem reportWheel_scSpeed : (reportWheel d s).scSpeed = s.scSpeed := rfl
@[simp] theorem reportWheel_scStopped : (reportWheel d s).scStopped = s.scStopped := rfl
@[simp] theorem reportWheel_scEvent : (reportWheel d s).scEvent = s.scEvent := rfl
@[simp] theorem reportWheel_loopStart : (reportWheel d s).loopStart = s.loopStart := rfl
@[simp] theorem reportWheel_shutdownReq : (reportWheel d s).shutdownReq = s.shutdownReq := rfl
@[simp] theorem reportWheel_runSensor : (reportWheel d s).runSensor = s.runSensor := rfl
@[simp] theorem reportWheel_runButton : (reportWheel d s).runButton = s.runButton := rfl
@[simp] theorem reportWheel_runScroll : (reportWheel d s).runScroll = s.runScroll := rfl
@[simp] theorem reportWheel_reports : (reportWheel d s).reports = s.reports ++ [wheelReport d s.scSpeed] := rfl
@[simp] theorem reportWheel_events : (reportWheel d s).events = s.events := rfl
@[simp] theorem reportWheel_sensorPos : (reportWheel d s).sensorPos = s.sensorPos := rfl
@[simp] theorem reportWheel_buttonK : (reportWheel d s).buttonK = s.buttonK := rfl
@[simp] theorem reportWheel_buttonSleep : (reportWheel d s).buttonSleep = s.buttonSleep := rfl
@[simp] theorem reportWheel_scrollK : (reportWheel d s).scrollK = s.scrollK := rfl
@[simp] theorem reportWheel_scrollSleep : (reportWheel d s).scrollSleep = s.scrollSleep := rfl
@[simp] theorem reportWheel_oracle : (reportWheel d s).oracle = s.oracle := rfl
@[simp] theorem reportWheel_writeOracle : (reportWheel d s).writeOracle = s.writeOracle := rfl
@[simp] theorem reportWheel_slacks : (reportWheel d s).slacks = s.slacks := rfl
@[simp] theorem reportWheel_interludes : (reportWheel d s).interludes = s.interludes := rfl
@[simp] theorem reportWheel_wire : (reportWheel d s).wire = s.wire := rfl
@[simp] theorem reportWheel_ret : (reportWheel d s).ret = s.ret := rfl
@[simp] theorem reportWheel_agenda : (reportWheel d s).agenda = s.agenda := rfl
@[simp] theorem reportWheel_pos : (reportWheel d s).pos = s.pos := rfl
@[simp] theorem reportWheel_ended : (reportWheel d s).ended = s.ended := rfl

end

/-! ### `dropSlack` -/

section
variable  (s : State)

@[simp] theorem dropSlack_params : (dropSlack s).params = s.params := rfl
@[simp] theorem dropSlack_now : (dropSlack s).now = s.now := rfl
@[simp] theorem dropSlack_pins : (dropSlack s).pins = s.pins := rfl
@[simp] theorem dropSlack_irqPending : (dropSlack s).irqPending = s.irqPending := rfl
@[simp] theorem dropSlack_power : (dropSlack s).power = s.power := rfl
@[simp] theorem dropSlack_ncs : (dropSlack s).ncs = s.ncs := rfl
@[simp] theorem dropSlack_nreset : (dropSlack s).nreset = s.nreset := rfl
@[simp] theorem dropSlack_busLast : (dropSlack s).busLast = s.busLast := rfl
@[simp] theorem dropSlack_busLastEnd : (dropSlack s).busLastEnd = s.busLastEnd := rfl
@[simp] theorem dropSlack_busCorrupt : (dropSlack s).busCorrupt = s.busCorrupt := rfl
@[simp] theorem dropSlack_drvState : (dropSlack s).drvState = s.drvState := rfl
@[simp] theorem dropSlack_degraded : (dropSlack s).degraded = s.degraded := rfl
@[simp] theorem dropSlack_mode : (dropSlack s).mode = s.mode := rfl
@[simp] theorem dropSlack_diag : (dropSlack s).diag = s.diag := rfl
@[simp] theorem dropSlack_rb : (dropSlack s).rb = s.rb := rfl
@[simp] theorem dropSlack_rbW : (dropSlack s).rbW = s.rbW := rfl
@[simp] theorem dropSlack_rbR : (dropSlack s).rbR = s.rbR := rfl
@[simp] theorem dropSlack_ovfCount : (dropSlack s).ovfCount = s.ovfCount := rfl
@[simp] theorem dropSlack_seqPc : (dropSlack s).seqPc = s.seqPc := rfl
@[simp] theorem dropSlack_mlState : (dropSlack s).mlState = s.mlState := rfl
@[simp] theorem dropSlack_mlFlag : (dropSlack s).mlFlag = s.mlFlag := rfl
@[simp] theorem dropSlack_axState : (dropSlack s).axState = s.axState := rfl
@[simp] theorem dropSlack_axEvent : (dropSlack s).axEvent = s.axEvent := rfl
@[simp] theorem dropSlack_axConfirm : (dropSlack s).axConfirm = s.axConfirm := rfl
@[simp] theorem dropSlack_axHoldTs : (dropSlack s).axHoldTs = s.axHoldTs := rfl
@[simp] theorem dropSlack_scPhaseA : (dropSlack s).scPhaseA = s.scPhaseA := rfl
@[simp] theorem dropSlack_scPhaseB : (dropSlack s).scPhaseB = s.scPhaseB := rfl
@[simp] theorem dropSlack_scDir : (dropSlack s).scDir = s.scDir := rfl
@[simp] theorem dropSlack_scSpeed : (dropSlack s).scSpeed = s.scSpeed := rfl
@[simp] theorem dropSlack_scStopped : (dropSlack s).scStopped = s.scStopped := rfl
@[simp] theorem dropSlack_scEvent : (dropSlack s).scEvent = s.scEvent := rfl
@[simp] theorem dropSlack_loopStart : (dropSlack s).loopStart = s.loopStart := rfl
@[simp] theorem dropSlack_shutdownReq : (dropSlack s).shutdownReq = s.shutdownReq := rfl
@[simp] theorem dropSlack_runSensor : (dropSlack s).runSensor = s.runSensor := rfl
@[simp] theorem dropSlack_runButton : (dropSlack s).runButton = s.runButton := rfl
@[simp] theorem dropSlack_runScroll : (dropSlack s).runScroll = s.runScroll := rfl
@[simp] theorem dropSlack_reports : (dropSlack s).reports = s.reports := rfl
@[simp] theorem dropSlack_events : (dropSlack s).events = s.events := rfl
@[simp] theorem dropSlack_sensorPos : (dropSlack s).sensorPos = s.sensorPos := rfl
@[simp] theorem dropSlack_buttonK : (dropSlack s).buttonK = s.buttonK := rfl
@[simp] theorem dropSlack_buttonSleep : (dropSlack s).buttonSleep = s.buttonSleep := rfl
@[simp] theorem dropSlack_scrollK : (dropSlack s).scrollK = s.scrollK := rfl
@[simp] theorem dropSlack_scrollSleep : (dropSlack s).scrollSleep = s.scrollSleep := rfl
@[simp] theorem dropSlack_oracle : (dropSlack s).oracle = s.oracle := rfl
@[simp] theorem dropSlack_writeOracle : (dropSlack s).writeOracle = s.writeOracle := rfl
@[simp] theorem dropSlack_slacks : (dropSlack s).slacks = s.slacks.tail := rfl
@[simp] theorem dropSlack_interludes : (dropSlack s).interludes = s.interludes := rfl
@[simp] theorem dropSlack_wire : (dropSlack s).wire = s.wire := rfl
@[simp] theorem dropSlack_ret : (dropSlack s).ret = s.ret := rfl
@[simp] theorem dropSlack_agenda : (dropSlack s).agenda = s.agenda := rfl
@[simp] theorem dropSlack_pos : (dropSlack s).pos = s.pos := rfl
@[simp] theorem dropSlack_ended : (dropSlack s).ended = s.ended := rfl

end

/-! ### `dropOracle` -/

section
variable  (s : State)

@[simp] theorem dropOracle_params : (dropOracle s).params = s.params := rfl
@[simp] theorem dropOracle_now : (dropOracle s).now = s.now := rfl
@[simp] theorem dropOracle_pins : (dropOracle s).pins = s.pins := rfl
@[simp] theorem dropOracle_irqPending : (dropOracle s).irqPending = s.irqPending := rfl
@[simp] theorem dropOracle_power : (dropOracle s).power = s.power := rfl
@[simp] theorem dropOracle_ncs : (dropOracle s).ncs = s.ncs := rfl
@[simp] theorem dropOracle_nreset : (dropOracle s).nreset = s.nreset := rfl
@[simp] theorem dropOracle_busLast : (dropOracle s).busLast = s.busLast := rfl
@[simp] theorem dropOracle_busLastEnd : (dropOracle s).busLastEnd = s.busLastEnd := rfl
@[simp] theorem dropOracle_busCorrupt : (dropOracle s).busCorrupt = s.busCorrupt := rfl
@[simp] theorem dropOracle_drvState : (dropOracle s).drvState = s.drvState := rfl
@[simp] theorem dropOracle_degraded : (dropOracle s).degraded = s.degraded := rfl
@[simp] theorem dropOracle_mode : (dropOracle s).mode = s.mode := rfl
@[simp] theorem dropOracle_diag : (dropOracle s).diag = s.diag := rfl
@[simp] theorem dropOracle_rb : (dropOracle s).rb = s.rb := rfl
@[simp] theorem dropOracle_rbW : (dropOracle s).rbW = s.rbW := rfl
@[simp] theorem dropOracle_rbR : (dropOracle s).rbR = s.rbR := rfl
@[simp] theorem dropOracle_ovfCount : (dropOracle s).ovfCount = s.ovfCount := rfl
@[simp] theorem dropOracle_seqPc : (dropOracle s).seqPc = s.seqPc := rfl
@[simp] theorem dropOracle_mlState : (dropOracle s).mlState = s.mlState := rfl
@[simp] theorem dropOracle_mlFlag : (dropOracle s).mlFlag = s.mlFlag := rfl
@[simp] theorem dropOracle_axState : (dropOracle s).axState = s.axState := rfl
@[simp] theorem dropOracle_axEvent : (dropOracle s).axEvent = s.axEvent := rfl
@[simp] theorem dropOracle_axConfirm : (dropOracle s).axConfirm = s.axConfirm := rfl
@[simp] theorem dropOracle_axHoldTs : (dropOracle s).axHoldTs = s.axHoldTs := rfl
@[simp] theorem dropOracle_scPhaseA : (dropOracle s).scPhaseA = s.scPhaseA := rfl
@[simp] theorem dropOracle_scPhaseB : (dropOracle s).scPhaseB = s.scPhaseB := rfl
@[simp] theorem dropOracle_scDir : (dropOracle s).scDir = s.scDir := rfl
@[simp] theorem dropOracle_scSpeed : (dropOracle s).scSpeed = s.scSpeed := rfl
@[simp] theorem dropOracle_scStopped : (dropOracle s).scStopped = s.scStopped := rfl
@[simp] theorem dropOracle_scEvent : (dropOracle s).scEvent = s.scEvent := rfl
@[simp] theorem dropOracle_loopStart : (dropOracle s).loopStart = s.loopStart := rfl
@[simp] theorem dropOracle_shutdownReq : (dropOracle s).shutdownReq = s.shutdownReq := rfl
@[simp] theorem dropOracle_runSensor : (dropOracle s).runSensor = s.runSensor := rfl
@[simp] theorem dropOracle_runButton : (dropOracle s).runButton = s.runButton := rfl
@[simp] theorem dropOracle_runScroll : (dropOracle s).runScroll = s.runScroll := rfl
@[simp] theorem dropOracle_reports : (dropOracle s).reports = s.reports := rfl
@[simp] theorem dropOracle_events : (dropOracle s).events = s.events := rfl
@[simp] theorem dropOracle_sensorPos : (dropOracle s).sensorPos = s.sensorPos := rfl
@[simp] theorem dropOracle_buttonK : (dropOracle s).buttonK = s.buttonK := rfl
@[simp] theorem dropOracle_buttonSleep : (dropOracle s).buttonSleep = s.buttonSleep := rfl
@[simp] theorem dropOracle_scrollK : (dropOracle s).scrollK = s.scrollK := rfl
@[simp] theorem dropOracle_scrollSleep : (dropOracle s).scrollSleep = s.scrollSleep := rfl
@[simp] theorem dropOracle_oracle : (dropOracle s).oracle = s.oracle.tail := rfl
@[simp] theorem dropOracle_writeOracle : (dropOracle s).writeOracle = s.writeOracle := rfl
@[simp] theorem dropOracle_slacks : (dropOracle s).slacks = s.slacks := rfl
@[simp] theorem dropOracle_interludes : (dropOracle s).interludes = s.interludes := rfl
@[simp] theorem dropOracle_wire : (dropOracle s).wire = s.wire := rfl
@[simp] theorem dropOracle_ret : (dropOracle s).ret = s.ret := rfl
@[simp] theorem dropOracle_agenda : (dropOracle s).agenda = s.agenda := rfl
@[simp] theorem dropOracle_pos : (dropOracle s).pos = s.pos := rfl
@[simp] theorem dropOracle_ended : (dropOracle s).ended = s.ended := rfl

end

/-! ### `setNcs` -/

section
variable (l : Level) (s : State)

@[simp] theorem setNcs_params : (setNcs l s).params = s.params := rfl
@[simp] theorem setNcs_now : (setNcs l s).now = s.now := rfl
@[simp] theorem setNcs_pins : (setNcs l s).pins = s.pins := rfl
@[simp] theorem setNcs_irqPending : (setNcs l s).irqPending = s.irqPending := rfl
@[simp] theorem setNcs_power : (setNcs l s).power = s.power := rfl
@[simp] theorem setNcs_ncs : (setNcs l s).ncs = l := rfl
@[simp] theorem setNcs_nreset : (setNcs l s).nreset = s.nreset := rfl
@[simp] theorem setNcs_busLast : (setNcs l s).busLast = s.busLast := rfl
@[simp] theorem setNcs_busLastEnd : (setNcs l s).busLastEnd = s.busLastEnd := rfl
@[simp] theorem setNcs_busCorrupt : (setNcs l s).busCorrupt = s.busCorrupt := rfl
@[simp] theorem setNcs_drvState : (setNcs l s).drvState = s.drvState := rfl
@[simp] theorem setNcs_degraded : (setNcs l s).degraded = s.degraded := rfl
@[simp] theorem setNcs_mode : (setNcs l s).mode = s.mode := rfl
@[simp] theorem setNcs_diag : (setNcs l s).diag = s.diag := rfl
@[simp] theorem setNcs_rb : (setNcs l s).rb = s.rb := rfl
@[simp] theorem setNcs_rbW : (setNcs l s).rbW = s.rbW := rfl
@[simp] theorem setNcs_rbR : (setNcs l s).rbR = s.rbR := rfl
@[simp] theorem setNcs_ovfCount : (setNcs l s).ovfCount = s.ovfCount := rfl
@[simp] theorem setNcs_seqPc : (setNcs l s).seqPc = s.seqPc := rfl
@[simp] theorem setNcs_mlState : (setNcs l s).mlState = s.mlState := rfl
@[simp] theorem setNcs_mlFlag : (setNcs l s).mlFlag = s.mlFlag := rfl
@[simp] theorem setNcs_axState : (setNcs l s).axState = s.axState := rfl
@[simp] theorem setNcs_axEvent : (setNcs l s).axEvent = s.axEvent := rfl
@[simp] theorem setNcs_axConfirm : (setNcs l s).axConfirm = s.axConfirm := rfl
@[simp] theorem setNcs_axHoldTs : (setNcs l s).axHoldTs = s.axHoldTs := rfl
@[simp] theorem setNcs_scPhaseA : (setNcs l s).scPhaseA = s.scPhaseA := rfl
@[simp] theorem setNcs_scPhaseB : (setNcs l s).scPhaseB = s.scPhaseB := rfl
@[simp] theorem setNcs_scDir : (setNcs l s).scDir = s.scDir := rfl
@[simp] theorem setNcs_scSpeed : (setNcs l s).scSpeed = s.scSpeed := rfl
@[simp] theorem setNcs_scStopped : (setNcs l s).scStopped = s.scStopped := rfl
@[simp] theorem setNcs_scEvent : (setNcs l s).scEvent = s.scEvent := rfl
@[simp] theorem setNcs_loopStart : (setNcs l s).loopStart = s.loopStart := rfl
@[simp] theorem setNcs_shutdownReq : (setNcs l s).shutdownReq = s.shutdownReq := rfl
@[simp] theorem setNcs_runSensor : (setNcs l s).runSensor = s.runSensor := rfl
@[simp] theorem setNcs_runButton : (setNcs l s).runButton = s.runButton := rfl
@[simp] theorem setNcs_runScroll : (setNcs l s).runScroll = s.runScroll := rfl
@[simp] theorem setNcs_reports : (setNcs l s).reports = s.reports := rfl
@[simp] theorem setNcs_events : (setNcs l s).events = s.events := rfl
@[simp] theorem setNcs_sensorPos : (setNcs l s).sensorPos = s.sensorPos := rfl
@[simp] theorem setNcs_buttonK : (setNcs l s).buttonK = s.buttonK := rfl
@[simp] theorem setNcs_buttonSleep : (setNcs l s).buttonSleep = s.buttonSleep := rfl
@[simp] theorem setNcs_scrollK : (setNcs l s).scrollK = s.scrollK := rfl
@[simp] theorem setNcs_scrollSleep : (setNcs l s).scrollSleep = s.scrollSleep := rfl
@[simp] theorem setNcs_oracle : (setNcs l s).oracle = s.oracle := rfl
@[simp] theorem setNcs_writeOracle : (setNcs l s).writeOracle = s.writeOracle := rfl
@[simp] theorem setNcs_slacks : (setNcs l s).slacks = s.slacks := rfl
@[simp] theorem setNcs_interludes : (setNcs l s).interludes = s.interludes := rfl
@[simp] theorem setNcs_wire : (setNcs l s).wire = s.wire ++ [.ncs l s.now] := rfl
@[simp] theorem setNcs_ret : (setNcs l s).ret = s.ret := rfl
@[simp] theorem setNcs_agenda : (setNcs l s).agenda = s.agenda := rfl
@[simp] theorem setNcs_pos : (setNcs l s).pos = s.pos := rfl
@[simp] theorem setNcs_ended : (setNcs l s).ended = s.ended := rfl

end

/-! ### `sendBytes` -/

section
variable (b : List Byte) (s : State)

@[simp] theorem sendBytes_params : (sendBytes b s).params = s.params := rfl
@[simp] theorem sendBytes_now : (sendBytes b s).now = s.now := rfl
@[simp] theorem sendBytes_pins : (sendBytes b s).pins = s.pins := rfl
@[simp] theorem sendBytes_irqPending : (sendBytes b s).irqPending = s.irqPending := rfl
@[simp] theorem sendBytes_power : (sendBytes b s).power = s.power := rfl
@[simp] theorem sendBytes_ncs : (sendBytes b s).ncs = s.ncs := rfl
@[simp] theorem sendBytes_nreset : (sendBytes b s).nreset = s.nreset := rfl
@[simp] theorem sendBytes_busLast : (sendBytes b s).busLast = s.busLast := rfl
@[simp] theorem sendBytes_busLastEnd : (sendBytes b s).busLastEnd = s.busLastEnd := rfl
@[simp] theorem sendBytes_busCorrupt : (sendBytes b s).busCorrupt = s.busCorrupt := rfl
@[simp] theorem sendBytes_drvState : (sendBytes b s).drvState = s.drvState := rfl
@[simp] theorem sendBytes_degraded : (sendBytes b s).degraded = s.degraded := rfl
@[simp] theorem sendBytes_mode : (sendBytes b s).mode = s.mode := rfl
@[simp] theorem sendBytes_diag : (sendBytes b s).diag = s.diag := rfl
@[simp] theorem sendBytes_rb : (sendBytes b s).rb = s.rb := rfl
@[simp] theorem sendBytes_rbW : (sendBytes b s).rbW = s.rbW := rfl
@[simp] theorem sendBytes_rbR : (sendBytes b s).rbR = s.rbR := rfl
@[simp] theorem sendBytes_ovfCount : (sendBytes b s).ovfCount = s.ovfCount := rfl
@[simp] theorem sendBytes_seqPc : (sendBytes b s).seqPc = s.seqPc := rfl
@[simp] theorem sendBytes_mlState : (sendBytes b s).mlState = s.mlState := rfl
@[simp] theorem sendBytes_mlFlag : (sendBytes b s).mlFlag = s.mlFlag := rfl
@[simp] theorem sendBytes_axState : (sendBytes b s).axState = s.axState := rfl
@[simp] theorem sendBytes_axEvent : (sendBytes b s).axEvent = s.axEvent := rfl
@[simp] theorem sendBytes_axConfirm : (sendBytes b s).axConfirm = s.axConfirm := rfl
@[simp] theorem sendBytes_axHoldTs : (sendBytes b s).axHoldTs = s.axHoldTs := rfl
@[simp] theorem sendBytes_scPhaseA : (sendBytes b s).scPhaseA = s.scPhaseA := rfl
@[simp] theorem sendBytes_scPhaseB : (sendBytes b s).scPhaseB = s.scPhaseB := rfl
@[simp] theorem sendBytes_scDir : (sendBytes b s).scDir = s.scDir := rfl
@[simp] theorem sendBytes_scSpeed : (sendBytes b s).scSpeed = s.scSpeed := rfl
@[simp] theorem sendBytes_scStopped : (sendBytes b s).scStopped = s.scStopped := rfl
@[simp] theorem sendBytes_scEvent : (sendBytes b s).scEvent = s.scEvent := rfl
@[simp] theorem sendBytes_loopStart : (sendBytes b s).loopStart = s.loopStart := rfl
@[simp] theorem sendBytes_shutdownReq : (sendBytes b s).shutdownReq = s.shutdownReq := rfl
@[simp] theorem sendBytes_runSensor : (sendBytes b s).runSensor = s.runSensor := rfl
@[simp] theorem sendBytes_runButton : (sendBytes b s).runButton = s.runButton := rfl
@[simp] theorem sendBytes_runScroll : (sendBytes b s).runScroll = s.runScroll := rfl
@[simp] theorem sendBytes_reports : (sendBytes b s).reports = s.reports := rfl
@[simp] theorem sendBytes_events : (sendBytes b s).events = s.events := rfl
@[simp] theorem sendBytes_sensorPos : (sendBytes b s).sensorPos = s.sensorPos := rfl
@[simp] theorem sendBytes_buttonK : (sendBytes b s).buttonK = s.buttonK := rfl
@[simp] theorem sendBytes_buttonSleep : (sendBytes b s).buttonSleep = s.buttonSleep := rfl
@[simp] theorem sendBytes_scrollK : (sendBytes b s).scrollK = s.scrollK := rfl
@[simp] theorem sendBytes_scrollSleep : (sendBytes b s).scrollSleep = s.scrollSleep := rfl
@[simp] theorem sendBytes_oracle : (sendBytes b s).oracle = s.oracle := rfl
@[simp] theorem sendBytes_writeOracle : (sendBytes b s).writeOracle = s.writeOracle := rfl
@[simp] theorem sendBytes_slacks : (sendBytes b s).slacks = s.slacks := rfl
@[simp] theorem sendBytes_interludes : (sendBytes b s).interludes = s.interludes := rfl
@[simp] theorem sendBytes_wire : (sendBytes b s).wire = s.wire ++ b.map .sent := rfl
@[simp] theorem sendBytes_ret : (sendBytes b s).ret = s.ret := rfl
@[simp] theorem sendBytes_agenda : (sendBytes b s).agenda = s.agenda := rfl
@[simp] theorem sendBytes_pos : (sendBytes b s).pos = s.pos := rfl
@[simp] theorem sendBytes_ended : (sendBytes b s).ended = s.ended := rfl

end

/-! ### `gotoStep` -/

section
variable (st : SeqStep) (s : State)

@[simp] theorem gotoStep_params : (gotoStep st s).params = s.params := rfl
@[simp] theorem gotoStep_now : (gotoStep st s).now = s.now := rfl
@[simp] theorem gotoStep_pins : (gotoStep st s).pins = s.pins := rfl
@[simp] theorem gotoStep_irqPending : (gotoStep st s).irqPending = s.irqPending := rfl
@[simp] theorem gotoStep_power : (gotoStep st s).power = s.power := rfl
@[simp] theorem gotoStep_ncs : (gotoStep st s).ncs = s.ncs := rfl
@[simp] theorem gotoStep_nreset : (gotoStep st s).nreset = s.nreset := rfl
@[simp] theorem gotoStep_busLast : (gotoStep st s).busLast = s.busLast := rfl
@[simp] theorem gotoStep_busLastEnd : (gotoStep st s).busLastEnd = s.busLastEnd := rfl
@[simp] theorem gotoStep_busCorrupt : (gotoStep st s).busCorrupt = s.busCorrupt := rfl
@[simp] theorem gotoStep_drvState : (gotoStep st s).drvState = s.drvState := rfl
@[simp] theorem gotoStep_degraded : (gotoStep st s).degraded = s.degraded := rfl
@[simp] theorem gotoStep_mode : (gotoStep st s).mode = s.mode := rfl
@[simp] theorem gotoStep_diag : (gotoStep st s).diag = s.diag := rfl
@[simp] theorem gotoStep_rb : (gotoStep st s).rb = s.rb := rfl
@[simp] theorem gotoStep_rbW : (gotoStep st s).rbW = s.rbW := rfl
@[simp] theorem gotoStep_rbR : (gotoStep st s).rbR = s.rbR := rfl
@[simp] theorem gotoStep_ovfCount : (gotoStep st s).ovfCount = s.ovfCount := rfl
@[simp] theorem gotoStep_seqPc : (gotoStep st s).seqPc = ⟨st, 0, s.seqPc.attempt⟩ := rfl
@[simp] theorem gotoStep_mlState : (gotoStep st s).mlState = s.mlState := rfl
@[simp] theorem gotoStep_mlFlag : (gotoStep st s).mlFlag = s.mlFlag := rfl
@[simp] theorem gotoStep_axState : (gotoStep st s).axState = s.axState := rfl
@[simp] theorem gotoStep_axEvent : (gotoStep st s).axEvent = s.axEvent := rfl
@[simp] theorem gotoStep_axConfirm : (gotoStep st s).axConfirm = s.axConfirm := rfl
@[simp] theorem gotoStep_axHoldTs : (gotoStep st s).axHoldTs = s.axHoldTs := rfl
@[simp] theorem gotoStep_scPhaseA : (gotoStep st s).scPhaseA = s.scPhaseA := rfl
@[simp] theorem gotoStep_scPhaseB : (gotoStep st s).scPhaseB = s.scPhaseB := rfl
@[simp] theorem gotoStep_scDir : (gotoStep st s).scDir = s.scDir := rfl
@[simp] theorem gotoStep_scSpeed : (gotoStep st s).scSpeed = s.scSpeed := rfl
@[simp] theorem gotoStep_scStopped : (gotoStep st s).scStopped = s.scStopped := rfl
@[simp] theorem gotoStep_scEvent : (gotoStep st s).scEvent = s.scEvent := rfl
@[simp] theorem gotoStep_loopStart : (gotoStep st s).loopStart = s.loopStart := rfl
@[simp] theorem gotoStep_shutdownReq : (gotoStep st s).shutdownReq = s.shutdownReq := rfl
@[simp] theorem gotoStep_runSensor : (gotoStep st s).runSensor = s.runSensor := rfl
@[simp] theorem gotoStep_runButton : (gotoStep st s).runButton = s.runButton := rfl
@[simp] theorem gotoStep_runScroll : (gotoStep st s).runScroll = s.runScroll := rfl
@[simp] theorem gotoStep_reports : (gotoStep st s).reports = s.reports := rfl
@[simp] theorem gotoStep_events : (gotoStep st s).events = s.events := rfl
@[simp] theorem gotoStep_sensorPos : (gotoStep st s).sensorPos = s.sensorPos := rfl
@[simp] theorem gotoStep_buttonK : (gotoStep st s).buttonK = s.buttonK := rfl
@[simp] theorem gotoStep_buttonSleep : (gotoStep st s).buttonSleep = s.buttonSleep := rfl
@[simp] theorem gotoStep_scrollK : (gotoStep st s).scrollK = s.scrollK := rfl
@[simp] theorem gotoStep_scrollSleep : (gotoStep st s).scrollSleep = s.scrollSleep := rfl
@[simp] theorem gotoStep_oracle : (gotoStep st s).oracle = s.oracle := rfl
@[simp] theorem gotoStep_writeOracle : (gotoStep st s).writeOracle = s.writeOracle := rfl
@[simp] theorem gotoStep_slacks : (gotoStep st s).slacks = s.slacks := rfl
@[simp] theorem gotoStep_interludes : (gotoStep st s).interludes = s.interludes := rfl
@[simp] theorem gotoStep_wire : (gotoStep st s).wire = s.wire := rfl
@[simp] theorem gotoStep_ret : (gotoStep st s).ret = s.ret := rfl
@[simp] theorem gotoStep_agenda : (gotoStep st s).agenda = s.agenda := rfl
@[simp] theorem gotoStep_pos : (gotoStep st s).pos = s.pos := rfl
@[simp] theorem gotoStep_ended : (gotoStep st s).ended = s.ended := rfl

end

/-! ### `gotoFresh` -/

section
variable (st : SeqStep) (s : State)

@[simp] theorem gotoFresh_params : (gotoFresh st s).params = s.params := rfl
@[simp] theorem gotoFresh_now : (gotoFresh st s).now = s.now := rfl
@[simp] theorem gotoFresh_pins : (gotoFresh st s).pins = s.pins := rfl
@[simp] theorem gotoFresh_irqPending : (gotoFresh st s).irqPending = s.irqPending := rfl
@[simp] theorem gotoFresh_power : (gotoFresh st s).power = s.power := rfl
@[simp] theorem gotoFresh_ncs : (gotoFresh st s).ncs = s.ncs := rfl
@[simp] theorem gotoFresh_nreset : (gotoFresh st s).nreset = s.nreset := rfl
@[simp] theorem gotoFresh_busLast : (gotoFresh st s).busLast = s.busLast := rfl
@[simp] theorem gotoFresh_busLastEnd : (gotoFresh st s).busLastEnd = s.busLastEnd := rfl
@[simp] theorem gotoFresh_busCorrupt : (gotoFresh st s).busCorrupt = s.busCorrupt := rfl
@[simp] theorem gotoFresh_drvState : (gotoFresh st s).drvState = s.drvState := rfl
@[simp] theorem gotoFresh_degraded : (gotoFresh st s).degraded = s.degraded := rfl
@[simp] theorem gotoFresh_mode : (gotoFresh st s).mode = s.mode := rfl
@[simp] theorem gotoFresh_diag : (gotoFresh st s).diag = s.diag := rfl
@[simp] theorem gotoFresh_rb : (gotoFresh st s).rb = s.rb := rfl
@[simp] theorem gotoFresh_rbW : (gotoFresh st s).rbW = s.rbW := rfl
@[simp] theorem gotoFresh_rbR : (gotoFresh st s).rbR = s.rbR := rfl
@[simp] theorem gotoFresh_ovfCount : (gotoFresh st s).ovfCount = s.ovfCount := rfl
@[simp] theorem gotoFresh_seqPc : (gotoFresh st s).seqPc = ⟨st, 0, 0⟩ := rfl
@[simp] theorem gotoFresh_mlState : (gotoFresh st s).mlState = s.mlState := rfl
@[simp] theorem gotoFresh_mlFlag : (gotoFresh st s).mlFlag = s.mlFlag := rfl
@[simp] theorem gotoFresh_axState : (gotoFresh st s).axState = s.axState := rfl
@[simp] theorem gotoFresh_axEvent : (gotoFresh st s).axEvent = s.axEvent := rfl
@[simp] theorem gotoFresh_axConfirm : (gotoFresh st s).axConfirm = s.axConfirm := rfl
@[simp] theorem gotoFresh_axHoldTs : (gotoFresh st s).axHoldTs = s.axHoldTs := rfl
@[simp] theorem gotoFresh_scPhaseA : (gotoFresh st s).scPhaseA = s.scPhaseA := rfl
@[simp] theorem gotoFresh_scPhaseB : (gotoFresh st s).scPhaseB = s.scPhaseB := rfl
@[simp] theorem gotoFresh_scDir : (gotoFresh st s).scDir = s.scDir := rfl
@[simp] theorem gotoFresh_scSpeed : (gotoFresh st s).scSpeed = s.scSpeed := rfl
@[simp] theorem gotoFresh_scStopped : (gotoFresh st s).scStopped = s.scStopped := rfl
@[simp] theorem gotoFresh_scEvent : (gotoFresh st s).scEvent = s.scEvent := rfl
@[simp] theorem gotoFresh_loopStart : (gotoFresh st s).loopStart = s.loopStart := rfl
@[simp] theorem gotoFresh_shutdownReq : (gotoFresh st s).shutdownReq = s.shutdownReq := rfl
@[simp] theorem gotoFresh_runSensor : (gotoFresh st s).runSensor = s.runSensor := rfl
@[simp] theorem gotoFresh_runButton : (gotoFresh st s).runButton = s.runButton := rfl
@[simp] theorem gotoFresh_runScroll : (gotoFresh st s).runScroll = s.runScroll := rfl
@[simp] theorem gotoFresh_reports : (gotoFresh st s).reports = s.reports := rfl
@[simp] theorem gotoFresh_events : (gotoFresh st s).events = s.events := rfl
@[simp] theorem gotoFresh_sensorPos : (gotoFresh st s).sensorPos = s.sensorPos := rfl
@[simp] theorem gotoFresh_buttonK : (gotoFresh st s).buttonK = s.buttonK := rfl
@[simp] theorem gotoFresh_buttonSleep : (gotoFresh st s).buttonSleep = s.buttonSleep := rfl
@[simp] theorem gotoFresh_scrollK : (gotoFresh st s).scrollK = s.scrollK := rfl
@[simp] theorem gotoFresh_scrollSleep : (gotoFresh st s).scrollSleep = s.scrollSleep := rfl
@[simp] theorem gotoFresh_oracle : (gotoFresh st s).oracle = s.oracle := rfl
@[simp] theorem gotoFresh_writeOracle : (gotoFresh st s).writeOracle = s.writeOracle := rfl
@[simp] theorem gotoFresh_slacks : (gotoFresh st s).slacks = s.slacks := rfl
@[simp] theorem gotoFresh_interludes : (gotoFresh st s).interludes = s.interludes := rfl
@[simp] theorem gotoFresh_wire : (gotoFresh st s).wire = s.wire := rfl
@[simp] theorem gotoFresh_ret : (gotoFresh st s).ret = s.ret := rfl
@[simp] theorem gotoFresh_agenda : (gotoFresh st s).agenda = s.agenda := rfl
@[simp] theorem gotoFresh_pos : (gotoFresh st s).pos = s.pos := rfl
@[simp] theorem gotoFresh_ended : (gotoFresh st s).ended = s.ended := rfl

end

/-! ### `nextEntry` -/

section
variable  (s : State)

@[simp] theorem nextEntry_params : (nextEntry s).params = s.params := rfl
@[simp] theorem nextEntry_now : (nextEntry s).now = s.now := rfl
@[simp] theorem nextEntry_pins : (nextEntry s).pins = s.pins := rfl
@[simp] theorem nextEntry_irqPending : (nextEntry s).irqPending = s.irqPending := rfl
@[simp] theorem nextEntry_power : (nextEntry s).power = s.power := rfl
@[simp] theorem nextEntry_ncs : (nextEntry s).ncs = s.ncs := rfl
@[simp] theorem nextEntry_nreset : (nextEntry s).nreset = s.nreset := rfl
@[simp] theorem nextEntry_busLast : (nextEntry s).busLast = s.busLast := rfl
@[simp] theorem nextEntry_busLastEnd : (nextEntry s).busLastEnd = s.busLastEnd := rfl
@[simp] theorem nextEntry_busCorrupt : (nextEntry s).busCorrupt = s.busCorrupt := rfl
@[simp] theorem nextEntry_drvState : (nextEntry s).drvState = s.drvState := rfl
@[simp] theorem nextEntry_degraded : (nextEntry s).degraded = s.degraded := rfl
@[simp] theorem nextEntry_mode : (nextEntry s).mode = s.mode := rfl
@[simp] theorem nextEntry_diag : (nextEntry s).diag = s.diag := rfl
@[simp] theorem nextEntry_rb : (nextEntry s).rb = s.rb := rfl
@[simp] theorem nextEntry_rbW : (nextEntry s).rbW = s.rbW := rfl
@[simp] theorem nextEntry_rbR : (nextEntry s).rbR = s.rbR := rfl
@[simp] theorem nextEntry_ovfCount : (nextEntry s).ovfCount = s.ovfCount := rfl
@[simp] theorem nextEntry_seqPc : (nextEntry s).seqPc = ⟨s.seqPc.step, s.seqPc.idx + 1, s.seqPc.attempt⟩ := rfl
@[simp] theorem nextEntry_mlState : (nextEntry s).mlState = s.mlState := rfl
@[simp] theorem nextEntry_mlFlag : (nextEntry s).mlFlag = s.mlFlag := rfl
@[simp] theorem nextEntry_axState : (nextEntry s).axState = s.axState := rfl
@[simp] theorem nextEntry_axEvent : (nextEntry s).axEvent = s.axEvent := rfl
@[simp] theorem nextEntry_axConfirm : (nextEntry s).axConfirm = s.axConfirm := rfl
@[simp] theorem nextEntry_axHoldTs : (nextEntry s).axHoldTs = s.axHoldTs := rfl
@[simp] theorem nextEntry_scPhaseA : (nextEntry s).scPhaseA = s.scPhaseA := rfl
@[simp] theorem nextEntry_scPhaseB : (nextEntry s).scPhaseB = s.scPhaseB := rfl
@[simp] theorem nextEntry_scDir : (nextEntry s).scDir = s.scDir := rfl
@[simp] theorem nextEntry_scSpeed : (nextEntry s).scSpeed = s.scSpeed := rfl
@[simp] theorem nextEntry_scStopped : (nextEntry s).scStopped = s.scStopped := rfl
@[simp] theorem nextEntry_scEvent : (nextEntry s).scEvent = s.scEvent := rfl
@[simp] theorem nextEntry_loopStart : (nextEntry s).loopStart = s.loopStart := rfl
@[simp] theorem nextEntry_shutdownReq : (nextEntry s).shutdownReq = s.shutdownReq := rfl
@[simp] theorem nextEntry_runSensor : (nextEntry s).runSensor = s.runSensor := rfl
@[simp] theorem nextEntry_runButton : (nextEntry s).runButton = s.runButton := rfl
@[simp] theorem nextEntry_runScroll : (nextEntry s).runScroll = s.runScroll := rfl
@[simp] theorem nextEntry_reports : (nextEntry s).reports = s.reports := rfl
@[simp] theorem nextEntry_events : (nextEntry s).events = s.events := rfl
@[simp] theorem nextEntry_sensorPos : (nextEntry s).sensorPos = s.sensorPos := rfl
@[simp] theorem nextEntry_buttonK : (nextEntry s).buttonK = s.buttonK := rfl
@[simp] theorem nextEntry_buttonSleep : (nextEntry s).buttonSleep = s.buttonSleep := rfl
@[simp] theorem nextEntry_scrollK : (nextEntry s).scrollK = s.scrollK := rfl
@[simp] theorem nextEntry_scrollSleep : (nextEntry s).scrollSleep = s.scrollSleep := rfl
@[simp] theorem nextEntry_oracle : (nextEntry s).oracle = s.oracle := rfl
@[simp] theorem nextEntry_writeOracle : (nextEntry s).writeOracle = s.writeOracle := rfl
@[simp] theorem nextEntry_slacks : (nextEntry s).slacks = s.slacks := rfl
@[simp] theorem nextEntry_interludes : (nextEntry s).interludes = s.interludes := rfl
@[simp] theorem nextEntry_wire : (nextEntry s).wire = s.wire := rfl
@[simp] theorem nextEntry_ret : (nextEntry s).ret = s.ret := rfl
@[simp] theorem nextEntry_agenda : (nextEntry s).agenda = s.agenda := rfl
@[simp] theorem nextEntry_pos : (nextEntry s).pos = s.pos := rfl
@[simp] theorem nextEntry_ended : (nextEntry s).ended = s.ended := rfl

end

/-! ### `nextAttempt` -/

section
variable  (s : State)

@[simp] theorem nextAttempt_params : (nextAttempt s).params = s.params := rfl
@[simp] theorem nextAttempt_now : (nextAttempt s).now = s.now := rfl
@[simp] theorem nextAttempt_pins : (nextAttempt s).pins = s.pins := rfl
@[simp] theorem nextAttempt_irqPending : (nextAttempt s).irqPending = s.irqPending := rfl
@[simp] theorem nextAttempt_power : (nextAttempt s).power = s.power := rfl
@[simp] theorem nextAttempt_ncs : (nextAttempt s).ncs = s.ncs := rfl
@[simp] theorem nextAttempt_nreset : (nextAttempt s).nreset = s.nreset := rfl
@[simp] theorem nextAttempt_busLast : (nextAttempt s).busLast = s.busLast := rfl
@[simp] theorem nextAttempt_busLastEnd : (nextAttempt s).busLastEnd = s.busLastEnd := rfl
@[simp] theorem nextAttempt_busCorrupt : (nextAttempt s).busCorrupt = s.busCorrupt := rfl
@[simp] theorem nextAttempt_drvState : (nextAttempt s).drvState = s.drvState := rfl
@[simp] theorem nextAttempt_degraded : (nextAttempt s).degraded = s.degraded := rfl
@[simp] theorem nextAttempt_mode : (nextAttempt s).mode = s.mode := rfl
@[simp] theorem nextAttempt_diag : (nextAttempt s).diag = s.diag := rfl
@[simp] theorem nextAttempt_rb : (nextAttempt s).rb = s.rb := rfl
@[simp] theorem nextAttempt_rbW : (nextAttempt s).rbW = s.rbW := rfl
@[simp] theorem nextAttempt_rbR : (nextAttempt s).rbR = s.rbR := rfl
@[simp] theorem nextAttempt_ovfCount : (nextAttempt s).ovfCount = s.ovfCount := rfl
@[simp] theorem nextAttempt_seqPc : (nextAttempt s).seqPc = ⟨s.seqPc.step, s.seqPc.idx, s.seqPc.attempt + 1⟩ := rfl
@[simp] theorem nextAttempt_mlState : (nextAttempt s).mlState = s.mlState := rfl
@[simp] theorem nextAttempt_mlFlag : (nextAttempt s).mlFlag = s.mlFlag := rfl
@[simp] theorem nextAttempt_axState : (nextAttempt s).axState = s.axState := rfl
@[simp] theorem nextAttempt_axEvent : (nextAttempt s).axEvent = s.axEvent := rfl
@[simp] theorem nextAttempt_axConfirm : (nextAttempt s).axConfirm = s.axConfirm := rfl
@[simp] theorem nextAttempt_axHoldTs : (nextAttempt s).axHoldTs = s.axHoldTs := rfl
@[simp] theorem nextAttempt_scPhaseA : (nextAttempt s).scPhaseA = s.scPhaseA := rfl
@[simp] theorem nextAttempt_scPhaseB : (nextAttempt s).scPhaseB = s.scPhaseB := rfl
@[simp] theorem nextAttempt_scDir : (nextAttempt s).scDir = s.scDir := rfl
@[simp] theorem nextAttempt_scSpeed : (nextAttempt s).scSpeed = s.scSpeed := rfl
@[simp] theorem nextAttempt_scStopped : (nextAttempt s).scStopped = s.scStopped := rfl
@[simp] theorem nextAttempt_scEvent : (nextAttempt s).scEvent = s.scEvent := rfl
@[simp] theorem nextAttempt_loopStart : (nextAttempt s).loopStart = s.loopStart := rfl
@[simp] theorem nextAttempt_shutdownReq : (nextAttempt s).shutdownReq = s.shutdownReq := rfl
@[simp] theorem nextAttempt_runSensor : (nextAttempt s).runSensor = s.runSensor := rfl
@[simp] theorem nextAttempt_runButton : (nextAttempt s).runButton = s.runButton := rfl
@[simp] theorem nextAttempt_runScroll : (nextAttempt s).runScroll = s.runScroll := rfl
@[simp] theorem nextAttempt_reports : (nextAttempt s).reports = s.reports := rfl
@[simp] theorem nextAttempt_events : (nextAttempt s).events = s.events := rfl
@[simp] theorem nextAttempt_sensorPos : (nextAttempt s).sensorPos = s.sensorPos := rfl
@[simp] theorem nextAttempt_buttonK : (nextAttempt s).buttonK = s.buttonK := rfl
@[simp] theorem nextAttempt_buttonSleep : (nextAttempt s).buttonSleep = s.buttonSleep := rfl
@[simp] theorem nextAttempt_scrollK : (nextAttempt s).scrollK = s.scrollK := rfl
@[simp] theorem nextAttempt_scrollSleep : (nextAttempt s).scrollSleep = s.scrollSleep := rfl
@[simp] theorem nextAttempt_oracle : (nextAttempt s).oracle = s.oracle := rfl
@[simp] theorem nextAttempt_writeOracle : (nextAttempt s).writeOracle = s.writeOracle := rfl
@[simp] theorem nextAttempt_slacks : (nextAttempt s).slacks = s.slacks := rfl
@[simp] theorem nextAttempt_interludes : (nextAttempt s).interludes = s.interludes := rfl
@[simp] theorem nextAttempt_wire : (nextAttempt s).wire = s.wire := rfl
@[simp] theorem nextAttempt_ret : (nextAttempt s).ret = s.ret := rfl
@[simp] theorem nextAttempt_agenda : (nextAttempt s).agenda = s.agenda := rfl
@[simp] theorem nextAttempt_pos : (nextAttempt s).pos = s.pos := rfl
@[simp] theorem nextAttempt_ended : (nextAttempt s).ended = s.ended := rfl

end

/-! ### `setDrv` -/

section
variable (d : DrvState) (s : State)

@[simp] theorem setDrv_params : (setDrv d s).params = s.params := rfl
@[simp] theorem setDrv_now : (setDrv d s).now = s.now := rfl
@[simp] theorem setDrv_pins : (setDrv d s).pins = s.pins := rfl
@[simp] theorem setDrv_irqPending : (setDrv d s).irqPending = s.irqPending := rfl
@[simp] theorem setDrv_power : (setDrv d s).power = s.power := rfl
@[simp] theorem setDrv_ncs : (setDrv d s).ncs = s.ncs := rfl
@[simp] theorem setDrv_nreset : (setDrv d s).nreset = s.nreset := rfl
@[simp] theorem setDrv_busLast : (setDrv d s).busLast = s.busLast := rfl
@[simp] theorem setDrv_busLastEnd : (setDrv d s).busLastEnd = s.busLastEnd := rfl
@[simp] theorem setDrv_busCorrupt : (setDrv d s).busCorrupt = s.busCorrupt := rfl
@[simp] theorem setDrv_drvState : (setDrv d s).drvState = d := rfl
@[simp] theorem setDrv_degraded : (setDrv d s).degraded = s.degraded := rfl
@[simp] theorem setDrv_mode : (setDrv d s).mode = s.mode := rfl
@[simp] theorem setDrv_diag : (setDrv d s).diag = s.diag := rfl
@[simp] theorem setDrv_rb : (setDrv d s).rb = s.rb := rfl
@[simp] theorem setDrv_rbW : (setDrv d s).rbW = s.rbW := rfl
@[simp] theorem setDrv_rbR : (setDrv d s).rbR = s.rbR := rfl
@[simp] theorem setDrv_ovfCount : (setDrv d s).ovfCount = s.ovfCount := rfl
@[simp] theorem setDrv_seqPc : (setDrv d s).seqPc = s.seqPc := rfl
@[simp] theorem setDrv_mlState : (setDrv d s).mlState = s.mlState := rfl
@[simp] theorem setDrv_mlFlag : (setDrv d s).mlFlag = s.mlFlag := rfl
@[simp] theorem setDrv_axState : (setDrv d s).axState = s.axState := rfl
@[simp] theorem setDrv_axEvent : (setDrv d s).axEvent = s.axEvent := rfl
@[simp] theorem setDrv_axConfirm : (setDrv d s).axConfirm = s.axConfirm := rfl
@[simp] theorem setDrv_axHoldTs : (setDrv d s).axHoldTs = s.axHoldTs := rfl
@[simp] theorem setDrv_scPhaseA : (setDrv d s).scPhaseA = s.scPhaseA := rfl
@[simp] theorem setDrv_scPhaseB : (setDrv d s).scPhaseB = s.scPhaseB := rfl
@[simp] theorem setDrv_scDir : (setDrv d s).scDir = s.scDir := rfl
@[simp] theorem setDrv_scSpeed : (setDrv d s).scSpeed = s.scSpeed := rfl
@[simp] theorem setDrv_scStopped : (setDrv d s).scStopped = s.scStopped := rfl
@[simp] theorem setDrv_scEvent : (setDrv d s).scEvent = s.scEvent := rfl
@[simp] theorem setDrv_loopStart : (setDrv d s).loopStart = s.loopStart := rfl
@[simp] theorem setDrv_shutdownReq : (setDrv d s).shutdownReq = s.shutdownReq := rfl
@[simp] theorem setDrv_runSensor : (setDrv d s).runSensor = s.runSensor := rfl
@[simp] theorem setDrv_runButton : (setDrv d s).runButton = s.runButton := rfl
@[simp] theorem setDrv_runScroll : (setDrv d s).runScroll = s.runScroll := rfl
@[simp] theorem setDrv_reports : (setDrv d s).reports = s.reports := rfl
@[simp] theorem setDrv_events : (setDrv d s).events = s.events := rfl
@[simp] theorem setDrv_sensorPos : (setDrv d s).sensorPos = s.sensorPos := rfl
@[simp] theorem setDrv_buttonK : (setDrv d s).buttonK = s.buttonK := rfl
@[simp] theorem setDrv_buttonSleep : (setDrv d s).buttonSleep = s.buttonSleep := rfl
@[simp] theorem setDrv_scrollK : (setDrv d s).scrollK = s.scrollK := rfl
@[simp] theorem setDrv_scrollSleep : (setDrv d s).scrollSleep = s.scrollSleep := rfl
@[simp] theorem setDrv_oracle : (setDrv d s).oracle = s.oracle := rfl
@[simp] theorem setDrv_writeOracle : (setDrv d s).writeOracle = s.writeOracle := rfl
@[simp] theorem setDrv_slacks : (setDrv d s).slacks = s.slacks := rfl
@[simp] theorem setDrv_interludes : (setDrv d s).interludes = s.interludes := rfl
@[simp] theorem setDrv_wire : (setDrv d s).wire = s.wire := rfl
@[simp] theorem setDrv_ret : (setDrv d s).ret = s.ret := rfl
@[simp] theorem setDrv_agenda : (setDrv d s).agenda = s.agenda := rfl
@[simp] theorem setDrv_pos : (setDrv d s).pos = s.pos := rfl
@[simp] theorem setDrv_ended : (setDrv d s).ended = s.ended := rfl

end

/-! ### `setNreset` -/

section
variable (l : Level) (s : State)

@[simp] theorem setNreset_params : (setNreset l s).params = s.params := rfl
@[simp] theorem setNreset_now : (setNreset l s).now = s.now := rfl
@[simp] theorem setNreset_pins : (setNreset l s).pins = s.pins := rfl
@[simp] theorem setNreset_irqPending : (setNreset l s).irqPending = s.irqPending := rfl
@[simp] theorem setNreset_power : (setNreset l s).power = s.power := rfl
@[simp] theorem setNreset_ncs : (setNreset l s).ncs = s.ncs := rfl
@[simp] theorem setNreset_nreset : (setNreset l s).nreset = l := rfl
@[simp] theorem setNreset_busLast : (setNreset l s).busLast = s.busLast := rfl
@[simp] theorem setNreset_busLastEnd : (setNreset l s).busLastEnd = s.busLastEnd := rfl
@[simp] theorem setNreset_busCorrupt : (setNreset l s).busCorrupt = s.busCorrupt := rfl
@[simp] theorem setNreset_drvState : (setNreset l s).drvState = s.drvState := rfl
@[simp] theorem setNreset_degraded : (setNreset l s).degraded = s.degraded := rfl
@[simp] theorem setNreset_mode : (setNreset l s).mode = s.mode := rfl
@[simp] theorem setNreset_diag : (setNreset l s).diag = s.diag := rfl
@[simp] theorem setNreset_rb : (setNreset l s).rb = s.rb := rfl
@[simp] theorem setNreset_rbW : (setNreset l s).rbW = s.rbW := rfl
@[simp] theorem setNreset_rbR : (setNreset l s).rbR = s.rbR := rfl
@[simp] theorem setNreset_ovfCount : (setNreset l s).ovfCount = s.ovfCount := rfl
@[simp] theorem setNreset_seqPc : (setNreset l s).seqPc = s.seqPc := rfl
@[simp] theorem setNreset_mlState : (setNreset l s).mlState = s.mlState := rfl
@[simp] theorem setNreset_mlFlag : (setNreset l s).mlFlag = s.mlFlag := rfl
@[simp] theorem setNreset_axState : (setNreset l s).axState = s.axState := rfl
@[simp] theorem setNreset_axEvent : (setNreset l s).axEvent = s.axEvent := rfl
@[simp] theorem setNreset_axConfirm : (setNreset l s).axConfirm = s.axConfirm := rfl
@[simp] theorem setNreset_axHoldTs : (setNreset l s).axHoldTs = s.axHoldTs := rfl
@[simp] theorem setNreset_scPhaseA : (setNreset l s).scPhaseA = s.scPhaseA := rfl
@[simp] theorem setNreset_scPhaseB : (setNreset l s).scPhaseB = s.scPhaseB := rfl
@[simp] theorem setNreset_scDir : (setNreset l s).scDir = s.scDir := rfl
@[simp] theorem setNreset_scSpeed : (setNreset l s).scSpeed = s.scSpeed := rfl
@[simp] theorem setNreset_scStopped : (setNreset l s).scStopped = s.scStopped := rfl
@[simp] theorem setNreset_scEvent : (setNreset l s).scEvent = s.scEvent := rfl
@[simp] theorem setNreset_loopStart : (setNreset l s).loopStart = s.loopStart := rfl
@[simp] theorem setNreset_shutdownReq : (setNreset l s).shutdownReq = s.shutdownReq := rfl
@[simp] theorem setNreset_runSensor : (setNreset l s).runSensor = s.runSensor := rfl
@[simp] theorem setNreset_runButton : (setNreset l s).runButton = s.runButton := rfl
@[simp] theorem setNreset_runScroll : (setNreset l s).runScroll = s.runScroll := rfl
@[simp] theorem setNreset_reports : (setNreset l s).reports = s.reports := rfl
@[simp] theorem setNreset_events : (setNreset l s).events = s.events := rfl
@[simp] theorem setNreset_sensorPos : (setNreset l s).sensorPos = s.sensorPos := rfl
@[simp] theorem setNreset_buttonK : (setNreset l s).buttonK = s.buttonK := rfl
@[simp] theorem setNreset_buttonSleep : (setNreset l s).buttonSleep = s.buttonSleep := rfl
@[simp] theorem setNreset_scrollK : (setNreset l s).scrollK = s.scrollK := rfl
@[simp] theorem setNreset_scrollSleep : (setNreset l s).scrollSleep = s.scrollSleep := rfl
@[simp] theorem setNreset_oracle : (setNreset l s).oracle = s.oracle := rfl
@[simp] theorem setNreset_writeOracle : (setNreset l s).writeOracle = s.writeOracle := rfl
@[simp] theorem setNreset_slacks : (setNreset l s).slacks = s.slacks := rfl
@[simp] theorem setNreset_interludes : (setNreset l s).interludes = s.interludes := rfl
@[simp] theorem setNreset_wire : (setNreset l s).wire = s.wire := rfl
@[simp] theorem setNreset_ret : (setNreset l s).ret = s.ret := rfl
@[simp] theorem setNreset_agenda : (setNreset l s).agenda = s.agenda := rfl
@[simp] theorem setNreset_pos : (setNreset l s).pos = s.pos := rfl
@[simp] theorem setNreset_ended : (setNreset l s).ended = s.ended := rfl

end

/-! ### `storeDiag` -/

section
variable (b : Byte) (s : State)

@[simp] theorem storeDiag_params : (storeDiag b s).params = s.params := rfl
@[simp] theorem storeDiag_now : (storeDiag b s).now = s.now := rfl
@[simp] theorem storeDiag_pins : (storeDiag b s).pins = s.pins := rfl
@[simp] theorem storeDiag_irqPending : (storeDiag b s).irqPending = s.irqPending := rfl
@[simp] theorem storeDiag_power : (storeDiag b s).power = s.power := rfl
@[simp] theorem storeDiag_ncs : (storeDiag b s).ncs = s.ncs := rfl
@[simp] theorem storeDiag_nreset : (storeDiag b s).nreset = s.nreset := rfl
@[simp] theorem storeDiag_busLast : (storeDiag b s).busLast = s.busLast := rfl
@[simp] theorem storeDiag_busLastEnd : (storeDiag b s).busLastEnd = s.busLastEnd := rfl
@[simp] theorem storeDiag_busCorrupt : (storeDiag b s).busCorrupt = s.busCorrupt := rfl
@[simp] theorem storeDiag_drvState : (storeDiag b s).drvState = s.drvState := rfl
@[simp] theorem storeDiag_degraded : (storeDiag b s).degraded = s.degraded := rfl
@[simp] theorem storeDiag_mode : (storeDiag b s).mode = s.mode := rfl
@[simp] theorem storeDiag_diag : (storeDiag b s).diag = s.diag.set s.seqPc.idx b := rfl
@[simp] theorem storeDiag_rb : (storeDiag b s).rb = s.rb := rfl
@[simp] theorem storeDiag_rbW : (storeDiag b s).rbW = s.rbW := rfl
@[simp] theorem storeDiag_rbR : (storeDiag b s).rbR = s.rbR := rfl
@[simp] theorem storeDiag_ovfCount : (storeDiag b s).ovfCount = s.ovfCount := rfl
@[simp] theorem storeDiag_seqPc : (storeDiag b s).seqPc = s.seqPc := rfl
@[simp] theorem storeDiag_mlState : (storeDiag b s).mlState = s.mlState := rfl
@[simp] theorem storeDiag_mlFlag : (storeDiag b s).mlFlag = s.mlFlag := rfl
@[simp] theorem storeDiag_axState : (storeDiag b s).axState = s.axState := rfl
@[simp] theorem storeDiag_axEvent : (storeDiag b s).axEvent = s.axEvent := rfl
@[simp] theorem storeDiag_axConfirm : (storeDiag b s).axConfirm = s.axConfirm := rfl
@[simp] theorem storeDiag_axHoldTs : (storeDiag b s).axHoldTs = s.axHoldTs := rfl
@[simp] theorem storeDiag_scPhaseA : (storeDiag b s).scPhaseA = s.scPhaseA := rfl
@[simp] theorem storeDiag_scPhaseB : (storeDiag b s).scPhaseB = s.scPhaseB := rfl
@[simp] theorem storeDiag_scDir : (storeDiag b s).scDir = s.scDir := rfl
@[simp] theorem storeDiag_scSpeed : (storeDiag b s).scSpeed = s.scSpeed := rfl
@[simp] theorem storeDiag_scStopped : (storeDiag b s).scStopped = s.scStopped := rfl
@[simp] theorem storeDiag_scEvent : (storeDiag b s).scEvent = s.scEvent := rfl
@[simp] theorem storeDiag_loopStart : (storeDiag b s).loopStart = s.loopStart := rfl
@[simp] theorem storeDiag_shutdownReq : (storeDiag b s).shutdownReq = s.shutdownReq := rfl
@[simp] theorem storeDiag_runSensor : (storeDiag b s).runSensor = s.runSensor := rfl
@[simp] theorem storeDiag_runButton : (storeDiag b s).runButton = s.runButton := rfl
@[simp] theorem storeDiag_runScroll : (storeDiag b s).runScroll = s.runScroll := rfl
@[simp] theorem storeDiag_reports : (storeDiag b s).reports = s.reports := rfl
@[simp] theorem storeDiag_events : (storeDiag b s).events = s.events := rfl
@[simp] theorem storeDiag_sensorPos : (storeDiag b s).sensorPos = s.sensorPos := rfl
@[simp] theorem storeDiag_buttonK : (storeDiag b s).buttonK = s.buttonK := rfl
@[simp] theorem storeDiag_buttonSleep : (storeDiag b s).buttonSleep = s.buttonSleep := rfl
@[simp] theorem storeDiag_scrollK : (storeDiag b s).scrollK = s.scrollK := rfl
@[simp] theorem storeDiag_scrollSleep : (storeDiag b s).scrollSleep = s.scrollSleep := rfl
@[simp] theorem storeDiag_oracle : (storeDiag b s).oracle = s.oracle := rfl
@[simp] theorem storeDiag_writeOracle : (storeDiag b s).writeOracle = s.writeOracle := rfl
@[simp] theorem storeDiag_slacks : (storeDiag b s).slacks = s.slacks := rfl
@[simp] theorem storeDiag_interludes : (storeDiag b s).interludes = s.interludes := rfl
@[simp] theorem storeDiag_wire : (storeDiag b s).wire = s.wire := rfl
@[simp] theorem storeDiag_ret : (storeDiag b s).ret = s.ret := rfl
@[simp] theorem storeDiag_agenda : (storeDiag b s).agenda = s.agenda := rfl
@[simp] theorem storeDiag_pos : (storeDiag b s).pos = s.pos := rfl
@[simp] theorem storeDiag_ended : (storeDiag b s).ended = s.ended := rfl

end

/-! ### `fatalFault` -/

section
variable  (s : State)

@[simp] theorem fatalFault_params : (fatalFault s).params = s.params := rfl
@[simp] theorem fatalFault_now : (fatalFault s).now = s.now := rfl
@[simp] theorem fatalFault_pins : (fatalFault s).pins = s.pins := rfl
@[simp] theorem fatalFault_irqPending : (fatalFault s).irqPending = s.irqPending := rfl
@[simp] theorem fatalFault_power : (fatalFault s).power = s.power := rfl
@[simp] theorem fatalFault_ncs : (fatalFault s).ncs = s.ncs := rfl
@[simp] theorem fatalFault_nreset : (fatalFault s).nreset = s.nreset := rfl
@[simp] theorem fatalFault_busLast : (fatalFault s).busLast = s.busLast := rfl
@[simp] theorem fatalFault_busLastEnd : (fatalFault s).busLastEnd = s.busLastEnd := rfl
@[simp] theorem fatalFault_busCorrupt : (fatalFault s).busCorrupt = s.busCorrupt := rfl
@[simp] theorem fatalFault_drvState : (fatalFault s).drvState = .failed := rfl
@[simp] theorem fatalFault_degraded : (fatalFault s).degraded = s.degraded := rfl
@[simp] theorem fatalFault_mode : (fatalFault s).mode = s.mode := rfl
@[simp] theorem fatalFault_diag : (fatalFault s).diag = s.diag := rfl
@[simp] theorem fatalFault_rb : (fatalFault s).rb = s.rb := rfl
@[simp] theorem fatalFault_rbW : (fatalFault s).rbW = s.rbW := rfl
@[simp] theorem fatalFault_rbR : (fatalFault s).rbR = s.rbR := rfl
@[simp] theorem fatalFault_ovfCount : (fatalFault s).ovfCount = s.ovfCount := rfl
@[simp] theorem fatalFault_seqPc : (fatalFault s).seqPc = ⟨.fail, s.seqPc.idx, s.seqPc.attempt⟩ := rfl
@[simp] theorem fatalFault_mlState : (fatalFault s).mlState = s.mlState := rfl
@[simp] theorem fatalFault_mlFlag : (fatalFault s).mlFlag = s.mlFlag := rfl
@[simp] theorem fatalFault_axState : (fatalFault s).axState = s.axState := rfl
@[simp] theorem fatalFault_axEvent : (fatalFault s).axEvent = s.axEvent := rfl
@[simp] theorem fatalFault_axConfirm : (fatalFault s).axConfirm = s.axConfirm := rfl
@[simp] theorem fatalFault_axHoldTs : (fatalFault s).axHoldTs = s.axHoldTs := rfl
@[simp] theorem fatalFault_scPhaseA : (fatalFault s).scPhaseA = s.scPhaseA := rfl
@[simp] theorem fatalFault_scPhaseB : (fatalFault s).scPhaseB = s.scPhaseB := rfl
@[simp] theorem fatalFault_scDir : (fatalFault s).scDir = s.scDir := rfl
@[simp] theorem fatalFault_scSpeed : (fatalFault s).scSpeed = s.scSpeed := rfl
@[simp] theorem fatalFault_scStopped : (fatalFault s).scStopped = s.scStopped := rfl
@[simp] theorem fatalFault_scEvent : (fatalFault s).scEvent = s.scEvent := rfl
@[simp] theorem fatalFault_loopStart : (fatalFault s).loopStart = s.loopStart := rfl
@[simp] theorem fatalFault_shutdownReq : (fatalFault s).shutdownReq = s.shutdownReq := rfl
@[simp] theorem fatalFault_runSensor : (fatalFault s).runSensor = s.runSensor := rfl
@[simp] theorem fatalFault_runButton : (fatalFault s).runButton = s.runButton := rfl
@[simp] theorem fatalFault_runScroll : (fatalFault s).runScroll = s.runScroll := rfl
@[simp] theorem fatalFault_reports : (fatalFault s).reports = s.reports := rfl
@[simp] theorem fatalFault_events : (fatalFault s).events = s.events ++ [.transportFaultInit s.seqPc] := rfl
@[simp] theorem fatalFault_sensorPos : (fatalFault s).sensorPos = s.sensorPos := rfl
@[simp] theorem fatalFault_buttonK : (fatalFault s).buttonK = s.buttonK := rfl
@[simp] theorem fatalFault_buttonSleep : (fatalFault s).buttonSleep = s.buttonSleep := rfl
@[simp] theorem fatalFault_scrollK : (fatalFault s).scrollK = s.scrollK := rfl
@[simp] theorem fatalFault_scrollSleep : (fatalFault s).scrollSleep = s.scrollSleep := rfl
@[simp] theorem fatalFault_oracle : (fatalFault s).oracle = s.oracle := rfl
@[simp] theorem fatalFault_writeOracle : (fatalFault s).writeOracle = s.writeOracle := rfl
@[simp] theorem fatalFault_slacks : (fatalFault s).slacks = s.slacks := rfl
@[simp] theorem fatalFault_interludes : (fatalFault s).interludes = s.interludes := rfl
@[simp] theorem fatalFault_wire : (fatalFault s).wire = s.wire := rfl
@[simp] theorem fatalFault_ret : (fatalFault s).ret = s.ret := rfl
@[simp] theorem fatalFault_agenda : (fatalFault s).agenda = s.agenda := rfl
@[simp] theorem fatalFault_pos : (fatalFault s).pos = s.pos := rfl
@[simp] theorem fatalFault_ended : (fatalFault s).ended = s.ended := rfl

end

/-! ### `setWriteIndex` -/

section
variable (w : Nat) (s : State)

@[simp] theorem setWriteIndex_params : (setWriteIndex w s).params = s.params := rfl
@[simp] theorem setWriteIndex_now : (setWriteIndex w s).now = s.now := rfl
@[simp] theorem setWriteIndex_pins : (setWriteIndex w s).pins = s.pins := rfl
@[simp] theorem setWriteIndex_irqPending : (setWriteIndex w s).irqPending = s.irqPending := rfl
@[simp] theorem setWriteIndex_power : (setWriteIndex w s).power = s.power := rfl
@[simp] theorem setWriteIndex_ncs : (setWriteIndex w s).ncs = s.ncs := rfl
@[simp] theorem setWriteIndex_nreset : (setWriteIndex w s).nreset = s.nreset := rfl
@[simp] theorem setWriteIndex_busLast : (setWriteIndex w s).busLast = s.busLast := rfl
@[simp] theorem setWriteIndex_busLastEnd : (setWriteIndex w s).busLastEnd = s.busLastEnd := rfl
@[simp] theorem setWriteIndex_busCorrupt : (setWriteIndex w s).busCorrupt = s.busCorrupt := rfl
@[simp] theorem setWriteIndex_drvState : (setWriteIndex w s).drvState = s.drvState := rfl
@[simp] theorem setWriteIndex_degraded : (setWriteIndex w s).degraded = s.degraded := rfl
@[simp] theorem setWriteIndex_mode : (setWriteIndex w s).mode = s.mode := rfl
@[simp] theorem setWriteIndex_diag : (setWriteIndex w s).diag = s.diag := rfl
@[simp] theorem setWriteIndex_rb : (setWriteIndex w s).rb = s.rb := rfl
@[simp] theorem setWriteIndex_rbW : (setWriteIndex w s).rbW = w := rfl
@[simp] theorem setWriteIndex_rbR : (setWriteIndex w s).rbR = s.rbR := rfl
@[simp] theorem setWriteIndex_ovfCount : (setWriteIndex w s).ovfCount = s.ovfCount := rfl
@[simp] theorem setWriteIndex_seqPc : (setWriteIndex w s).seqPc = s.seqPc := rfl
@[simp] theorem setWriteIndex_mlState : (setWriteIndex w s).mlState = s.mlState := rfl
@[simp] theorem setWriteIndex_mlFlag : (setWriteIndex w s).mlFlag = s.mlFlag := rfl
@[simp] theorem setWriteIndex_axState : (setWriteIndex w s).axState = s.axState := rfl
@[simp] theorem setWriteIndex_axEvent : (setWriteIndex w s).axEvent = s.axEvent := rfl
@[simp] theorem setWriteIndex_axConfirm : (setWriteIndex w s).axConfirm = s.axConfirm := rfl
@[simp] theorem setWriteIndex_axHoldTs : (setWriteIndex w s).axHoldTs = s.axHoldTs := rfl
@[simp] theorem setWriteIndex_scPhaseA : (setWriteIndex w s).scPhaseA = s.scPhaseA := rfl
@[simp] theorem setWriteIndex_scPhaseB : (setWriteIndex w s).scPhaseB = s.scPhaseB := rfl
@[simp] theorem setWriteIndex_scDir : (setWriteIndex w s).scDir = s.scDir := rfl
@[simp] theorem setWriteIndex_scSpeed : (setWriteIndex w s).scSpeed = s.scSpeed := rfl
@[simp] theorem setWriteIndex_scStopped : (setWriteIndex w s).scStopped = s.scStopped := rfl
@[simp] theorem setWriteIndex_scEvent : (setWriteIndex w s).scEvent = s.scEvent := rfl
@[simp] theorem setWriteIndex_loopStart : (setWriteIndex w s).loopStart = s.loopStart := rfl
@[simp] theorem setWriteIndex_shutdownReq : (setWriteIndex w s).shutdownReq = s.shutdownReq := rfl
@[simp] theorem setWriteIndex_runSensor : (setWriteIndex w s).runSensor = s.runSensor := rfl
@[simp] theorem setWriteIndex_runButton : (setWriteIndex w s).runButton = s.runButton := rfl
@[simp] theorem setWriteIndex_runScroll : (setWriteIndex w s).runScroll = s.runScroll := rfl
@[simp] theorem setWriteIndex_reports : (setWriteIndex w s).reports = s.reports := rfl
@[simp] theorem setWriteIndex_events : (setWriteIndex w s).events = s.events := rfl
@[simp] theorem setWriteIndex_sensorPos : (setWriteIndex w s).sensorPos = s.sensorPos := rfl
@[simp] theorem setWriteIndex_buttonK : (setWriteIndex w s).buttonK = s.buttonK := rfl
@[simp] theorem setWriteIndex_buttonSleep : (setWriteIndex w s).buttonSleep = s.buttonSleep := rfl
@[simp] theorem setWriteIndex_scrollK : (setWriteIndex w s).scrollK = s.scrollK := rfl
@[simp] theorem setWriteIndex_scrollSleep : (setWriteIndex w s).scrollSleep = s.scrollSleep := rfl
@[simp] theorem setWriteIndex_oracle : (setWriteIndex w s).oracle = s.oracle := rfl
@[simp] theorem setWriteIndex_writeOracle : (setWriteIndex w s).writeOracle = s.writeOracle := rfl
@[simp] theorem setWriteIndex_slacks : (setWriteIndex w s).slacks = s.slacks := rfl
@[simp] theorem setWriteIndex_interludes : (setWriteIndex w s).interludes = s.interludes := rfl
@[simp] theorem setWriteIndex_wire : (setWriteIndex w s).wire = s.wire := rfl
@[simp] theorem setWriteIndex_ret : (setWriteIndex w s).ret = s.ret := rfl
@[simp] theorem setWriteIndex_agenda : (setWriteIndex w s).agenda = s.agenda := rfl
@[simp] theorem setWriteIndex_pos : (setWriteIndex w s).pos = s.pos := rfl
@[simp] theorem setWriteIndex_ended : (setWriteIndex w s).ended = s.ended := rfl

end

/-! ### `advanceRead` -/

section
variable  (s : State)

@[simp] theorem advanceRead_params : (advanceRead s).params = s.params := rfl
@[simp] theorem advanceRead_now : (advanceRead s).now = s.now := rfl
@[simp] theorem advanceRead_pins : (advanceRead s).pins = s.pins := rfl
@[simp] theorem advanceRead_irqPending : (advanceRead s).irqPending = s.irqPending := rfl
@[simp] theorem advanceRead_power : (advanceRead s).power = s.power := rfl
@[simp] theorem advanceRead_ncs : (advanceRead s).ncs = s.ncs := rfl
@[simp] theorem advanceRead_nreset : (advanceRead s).nreset = s.nreset := rfl
@[simp] theorem advanceRead_busLast : (advanceRead s).busLast = s.busLast := rfl
@[simp] theorem advanceRead_busLastEnd : (advanceRead s).busLastEnd = s.busLastEnd := rfl
@[simp] theorem advanceRead_busCorrupt : (advanceRead s).busCorrupt = s.busCorrupt := rfl
@[simp] theorem advanceRead_drvState : (advanceRead s).drvState = s.drvState := rfl
@[simp] theorem advanceRead_degraded : (advanceRead s).degraded = s.degraded := rfl
@[simp] theorem advanceRead_mode : (advanceRead s).mode = s.mode := rfl
@[simp] theorem advanceRead_diag : (advanceRead s).diag = s.diag := rfl
@[simp] theorem advanceRead_rb : (advanceRead s).rb = s.rb := rfl
@[simp] theorem advanceRead_rbW : (advanceRead s).rbW = s.rbW := rfl
@[simp] theorem advanceRead_rbR : (advanceRead s).rbR = nextIndex s s.rbR := rfl
@[simp] theorem advanceRead_ovfCount : (advanceRead s).ovfCount = s.ovfCount := rfl
@[simp] theorem advanceRead_seqPc : (advanceRead s).seqPc = s.seqPc := rfl
@[simp] theorem advanceRead_mlState : (advanceRead s).mlState = s.mlState := rfl
@[simp] theorem advanceRead_mlFlag : (advanceRead s).mlFlag = s.mlFlag := rfl
@[simp] theorem advanceRead_axState : (advanceRead s).axState = s.axState := rfl
@[simp] theorem advanceRead_axEvent : (advanceRead s).axEvent = s.axEvent := rfl
@[simp] theorem advanceRead_axConfirm : (advanceRead s).axConfirm = s.axConfirm := rfl
@[simp] theorem advanceRead_axHoldTs : (advanceRead s).axHoldTs = s.axHoldTs := rfl
@[simp] theorem advanceRead_scPhaseA : (advanceRead s).scPhaseA = s.scPhaseA := rfl
@[simp] theorem advanceRead_scPhaseB : (advanceRead s).scPhaseB = s.scPhaseB := rfl
@[simp] theorem advanceRead_scDir : (advanceRead s).scDir = s.scDir := rfl
@[simp] theorem advanceRead_scSpeed : (advanceRead s).scSpeed = s.scSpeed := rfl
@[simp] theorem advanceRead_scStopped : (advanceRead s).scStopped = s.scStopped := rfl
@[simp] theorem advanceRead_scEvent : (advanceRead s).scEvent = s.scEvent := rfl
@[simp] theorem advanceRead_loopStart : (advanceRead s).loopStart = s.loopStart := rfl
@[simp] theorem advanceRead_shutdownReq : (advanceRead s).shutdownReq = s.shutdownReq := rfl
@[simp] theorem advanceRead_runSensor : (advanceRead s).runSensor = s.runSensor := rfl
@[simp] theorem advanceRead_runButton : (advanceRead s).runButton = s.runButton := rfl
@[simp] theorem advanceRead_runScroll : (advanceRead s).runScroll = s.runScroll := rfl
@[simp] theorem advanceRead_reports : (advanceRead s).reports = s.reports := rfl
@[simp] theorem advanceRead_events : (advanceRead s).events = s.events := rfl
@[simp] theorem advanceRead_sensorPos : (advanceRead s).sensorPos = s.sensorPos := rfl
@[simp] theorem advanceRead_buttonK : (advanceRead s).buttonK = s.buttonK := rfl
@[simp] theorem advanceRead_buttonSleep : (advanceRead s).buttonSleep = s.buttonSleep := rfl
@[simp] theorem advanceRead_scrollK : (advanceRead s).scrollK = s.scrollK := rfl
@[simp] theorem advanceRead_scrollSleep : (advanceRead s).scrollSleep = s.scrollSleep := rfl
@[simp] theorem advanceRead_oracle : (advanceRead s).oracle = s.oracle := rfl
@[simp] theorem advanceRead_writeOracle : (advanceRead s).writeOracle = s.writeOracle := rfl
@[simp] theorem advanceRead_slacks : (advanceRead s).slacks = s.slacks := rfl
@[simp] theorem advanceRead_interludes : (advanceRead s).interludes = s.interludes := rfl
@[simp] theorem advanceRead_wire : (advanceRead s).wire = s.wire := rfl
@[simp] theorem advanceRead_ret : (advanceRead s).ret = s.ret := rfl
@[simp] theorem advanceRead_agenda : (advanceRead s).agenda = s.agenda := rfl
@[simp] theorem advanceRead_pos : (advanceRead s).pos = s.pos := rfl
@[simp] theorem advanceRead_ended : (advanceRead s).ended = s.ended := rfl

end

/-! ### `startCycle` -/

section
variable  (s : State)

@[simp] theorem startCycle_params : (startCycle s).params = s.params := rfl
@[simp] theorem startCycle_now : (startCycle s).now = s.now := rfl
@[simp] theorem startCycle_pins : (startCycle s).pins = s.pins := rfl
@[simp] theorem startCycle_irqPending : (startCycle s).irqPending = s.irqPending := rfl
@[simp] theorem startCycle_power : (startCycle s).power = s.power := rfl
@[simp] theorem startCycle_ncs : (startCycle s).ncs = s.ncs := rfl
@[simp] theorem startCycle_nreset : (startCycle s).nreset = s.nreset := rfl
@[simp] theorem startCycle_busLast : (startCycle s).busLast = s.busLast := rfl
@[simp] theorem startCycle_busLastEnd : (startCycle s).busLastEnd = s.busLastEnd := rfl
@[simp] theorem startCycle_busCorrupt : (startCycle s).busCorrupt = s.busCorrupt := rfl
@[simp] theorem startCycle_drvState : (startCycle s).drvState = s.drvState := rfl
@[simp] theorem startCycle_degraded : (startCycle s).degraded = s.degraded := rfl
@[simp] theorem startCycle_mode : (startCycle s).mode = s.mode := rfl
@[simp] theorem startCycle_diag : (startCycle s).diag = s.diag := rfl
@[simp] theorem startCycle_rb : (startCycle s).rb = s.rb := rfl
@[simp] theorem startCycle_rbW : (startCycle s).rbW = s.rbW := rfl
@[simp] theorem startCycle_rbR : (startCycle s).rbR = s.rbR := rfl
@[simp] theorem startCycle_ovfCount : (startCycle s).ovfCount = s.ovfCount := rfl
@[simp] theorem startCycle_seqPc : (startCycle s).seqPc = s.seqPc := rfl
@[simp] theorem startCycle_mlState : (startCycle s).mlState = s.mlState := rfl
@[simp] theorem startCycle_mlFlag : (startCycle s).mlFlag = s.mlFlag := rfl
@[simp] theorem startCycle_axState : (startCycle s).axState = s.axState := rfl
@[simp] theorem startCycle_axEvent : (startCycle s).axEvent = s.axEvent := rfl
@[simp] theorem startCycle_axConfirm : (startCycle s).axConfirm = s.axConfirm := rfl
@[simp] theorem startCycle_axHoldTs : (startCycle s).axHoldTs = s.axHoldTs := rfl
@[simp] theorem startCycle_scPhaseA : (startCycle s).scPhaseA = s.scPhaseA := rfl
@[simp] theorem startCycle_scPhaseB : (startCycle s).scPhaseB = s.scPhaseB := rfl
@[simp] theorem startCycle_scDir : (startCycle s).scDir = s.scDir := rfl
@[simp] theorem startCycle_scSpeed : (startCycle s).scSpeed = s.scSpeed := rfl
@[simp] theorem startCycle_scStopped : (startCycle s).scStopped = s.scStopped := rfl
@[simp] theorem startCycle_scEvent : (startCycle s).scEvent = s.scEvent := rfl
@[simp] theorem startCycle_loopStart : (startCycle s).loopStart = s.now := rfl
@[simp] theorem startCycle_shutdownReq : (startCycle s).shutdownReq = s.shutdownReq := rfl
@[simp] theorem startCycle_runSensor : (startCycle s).runSensor = s.runSensor := rfl
@[simp] theorem startCycle_runButton : (startCycle s).runButton = s.runButton := rfl
@[simp] theorem startCycle_runScroll : (startCycle s).runScroll = s.runScroll := rfl
@[simp] theorem startCycle_reports : (startCycle s).reports = s.reports := rfl
@[simp] theorem startCycle_events : (startCycle s).events = s.events := rfl
@[simp] theorem startCycle_sensorPos : (startCycle s).sensorPos = s.sensorPos := rfl
@[simp] theorem startCycle_buttonK : (startCycle s).buttonK = s.buttonK := rfl
@[simp] theorem startCycle_buttonSleep : (startCycle s).buttonSleep = s.buttonSleep := rfl
@[simp] theorem startCycle_scrollK : (startCycle s).scrollK = s.scrollK := rfl
@[simp] theorem startCycle_scrollSleep : (startCycle s).scrollSleep = s.scrollSleep := rfl
@[simp] theorem startCycle_oracle : (startCycle s).oracle = s.oracle := rfl
@[simp] theorem startCycle_writeOracle : (startCycle s).writeOracle = s.writeOracle := rfl
@[simp] theorem startCycle_slacks : (startCycle s).slacks = s.slacks := rfl
@[simp] theorem startCycle_interludes : (startCycle s).interludes = s.interludes := rfl
@[simp] theorem startCycle_wire : (startCycle s).wire = s.wire := rfl
@[simp] theorem startCycle_ret : (startCycle s).ret = s.ret := rfl
@[simp] theorem startCycle_agenda : (startCycle s).agenda = s.agenda := rfl
@[simp] theorem startCycle_pos : (startCycle s).pos = s.pos := rfl
@[simp] theorem startCycle_ended : (startCycle s).ended = s.ended := rfl

end

/-! ### `setMode` -/

section
variable (m : OpMode) (s : State)

@[simp] theorem setMode_params : (setMode m s).params = s.params := rfl
@[simp] theorem setMode_now : (setMode m s).now = s.now := rfl
@[simp] theorem setMode_pins : (setMode m s).pins = s.pins := rfl
@[simp] theorem setMode_irqPending : (setMode m s).irqPending = s.irqPending := rfl
@[simp] theorem setMode_power : (setMode m s).power = s.power := rfl
@[simp] theorem setMode_ncs : (setMode m s).ncs = s.ncs := rfl
@[simp] theorem setMode_nreset : (setMode m s).nreset = s.nreset := rfl
@[simp] theorem setMode_busLast : (setMode m s).busLast = s.busLast := rfl
@[simp] theorem setMode_busLastEnd : (setMode m s).busLastEnd = s.busLastEnd := rfl
@[simp] theorem setMode_busCorrupt : (setMode m s).busCorrupt = s.busCorrupt := rfl
@[simp] theorem setMode_drvState : (setMode m s).drvState = s.drvState := rfl
@[simp] theorem setMode_degraded : (setMode m s).degraded = s.degraded := rfl
@[simp] theorem setMode_mode : (setMode m s).mode = m := rfl
@[simp] theorem setMode_diag : (setMode m s).diag = s.diag := rfl
@[simp] theorem setMode_rb : (setMode m s).rb = s.rb := rfl
@[simp] theorem setMode_rbW : (setMode m s).rbW = s.rbW := rfl
@[simp] theorem setMode_rbR : (setMode m s).rbR = s.rbR := rfl
@[simp] theorem setMode_ovfCount : (setMode m s).ovfCount = s.ovfCount := rfl
@[simp] theorem setMode_seqPc : (setMode m s).seqPc = ⟨.stream, 0, s.seqPc.attempt⟩ := rfl
@[simp] theorem setMode_mlState : (setMode m s).mlState = s.mlState := rfl
@[simp] theorem setMode_mlFlag : (setMode m s).mlFlag = s.mlFlag := rfl
@[simp] theorem setMode_axState : (setMode m s).axState = s.axState := rfl
@[simp] theorem setMode_axEvent : (setMode m s).axEvent = s.axEvent := rfl
@[simp] theorem setMode_axConfirm : (setMode m s).axConfirm = s.axConfirm := rfl
@[simp] theorem setMode_axHoldTs : (setMode m s).axHoldTs = s.axHoldTs := rfl
@[simp] theorem setMode_scPhaseA : (setMode m s).scPhaseA = s.scPhaseA := rfl
@[simp] theorem setMode_scPhaseB : (setMode m s).scPhaseB = s.scPhaseB := rfl
@[simp] theorem setMode_scDir : (setMode m s).scDir = s.scDir := rfl
@[simp] theorem setMode_scSpeed : (setMode m s).scSpeed = s.scSpeed := rfl
@[simp] theorem setMode_scStopped : (setMode m s).scStopped = s.scStopped := rfl
@[simp] theorem setMode_scEvent : (setMode m s).scEvent = s.scEvent := rfl
@[simp] theorem setMode_loopStart : (setMode m s).loopStart = s.loopStart := rfl
@[simp] theorem setMode_shutdownReq : (setMode m s).shutdownReq = s.shutdownReq := rfl
@[simp] theorem setMode_runSensor : (setMode m s).runSensor = s.runSensor := rfl
@[simp] theorem setMode_runButton : (setMode m s).runButton = s.runButton := rfl
@[simp] theorem setMode_runScroll : (setMode m s).runScroll = s.runScroll := rfl
@[simp] theorem setMode_reports : (setMode m s).reports = s.reports := rfl
@[simp] theorem setMode_events : (setMode m s).events = s.events := rfl
@[simp] theorem setMode_sensorPos : (setMode m s).sensorPos = s.sensorPos := rfl
@[simp] theorem setMode_buttonK : (setMode m s).buttonK = s.buttonK := rfl
@[simp] theorem setMode_buttonSleep : (setMode m s).buttonSleep = s.buttonSleep := rfl
@[simp] theorem setMode_scrollK : (setMode m s).scrollK = s.scrollK := rfl
@[simp] theorem setMode_scrollSleep : (setMode m s).scrollSleep = s.scrollSleep := rfl
@[simp] theorem setMode_oracle : (setMode m s).oracle = s.oracle := rfl
@[simp] theorem setMode_writeOracle : (setMode m s).writeOracle = s.writeOracle := rfl
@[simp] theorem setMode_slacks : (setMode m s).slacks = s.slacks := rfl
@[simp] theorem setMode_interludes : (setMode m s).interludes = s.interludes := rfl
@[simp] theorem setMode_wire : (setMode m s).wire = s.wire := rfl
@[simp] theorem setMode_ret : (setMode m s).ret = s.ret := rfl
@[simp] theorem setMode_agenda : (setMode m s).agenda = s.agenda := rfl
@[simp] theorem setMode_pos : (setMode m s).pos = s.pos := rfl
@[simp] theorem setMode_ended : (setMode m s).ended = s.ended := rfl

end

/-! ### `buttonIdle` -/

section
variable  (s : State)

@[simp] theorem buttonIdle_params : (buttonIdle s).params = s.params := rfl
@[simp] theorem buttonIdle_now : (buttonIdle s).now = s.now := rfl
@[simp] theorem buttonIdle_pins : (buttonIdle s).pins = s.pins := rfl
@[simp] theorem buttonIdle_irqPending : (buttonIdle s).irqPending = s.irqPending := rfl
@[simp] theorem buttonIdle_power : (buttonIdle s).power = s.power := rfl
@[simp] theorem buttonIdle_ncs : (buttonIdle s).ncs = s.ncs := rfl
@[simp] theorem buttonIdle_nreset : (buttonIdle s).nreset = s.nreset := rfl
@[simp] theorem buttonIdle_busLast : (buttonIdle s).busLast = s.busLast := rfl
@[simp] theorem buttonIdle_busLastEnd : (buttonIdle s).busLastEnd = s.busLastEnd := rfl
@[simp] theorem buttonIdle_busCorrupt : (buttonIdle s).busCorrupt = s.busCorrupt := rfl
@[simp] theorem buttonIdle_drvState : (buttonIdle s).drvState = s.drvState := rfl
@[simp] theorem buttonIdle_degraded : (buttonIdle s).degraded = s.degraded := rfl
@[simp] theorem buttonIdle_mode : (buttonIdle s).mode = s.mode := rfl
@[simp] theorem buttonIdle_diag : (buttonIdle s).diag = s.diag := rfl
@[simp] theorem buttonIdle_rb : (buttonIdle s).rb = s.rb := rfl
@[simp] theorem buttonIdle_rbW : (buttonIdle s).rbW = s.rbW := rfl
@[simp] theorem buttonIdle_rbR : (buttonIdle s).rbR = s.rbR := rfl
@[simp] theorem buttonIdle_ovfCount : (buttonIdle s).ovfCount = s.ovfCount := rfl
@[simp] theorem buttonIdle_seqPc : (buttonIdle s).seqPc = s.seqPc := rfl
@[simp] theorem buttonIdle_mlState : (buttonIdle s).mlState = s.mlState := rfl
@[simp] theorem buttonIdle_mlFlag : (buttonIdle s).mlFlag = s.mlFlag := rfl
@[simp] theorem buttonIdle_axState : (buttonIdle s).axState = s.axState := rfl
@[simp] theorem buttonIdle_axEvent : (buttonIdle s).axEvent = s.axEvent := rfl
@[simp] theorem buttonIdle_axConfirm : (buttonIdle s).axConfirm = s.axConfirm := rfl
@[simp] theorem buttonIdle_axHoldTs : (buttonIdle s).axHoldTs = s.axHoldTs := rfl
@[simp] theorem buttonIdle_scPhaseA : (buttonIdle s).scPhaseA = s.scPhaseA := rfl
@[simp] theorem buttonIdle_scPhaseB : (buttonIdle s).scPhaseB = s.scPhaseB := rfl
@[simp] theorem buttonIdle_scDir : (buttonIdle s).scDir = s.scDir := rfl
@[simp] theorem buttonIdle_scSpeed : (buttonIdle s).scSpeed = s.scSpeed := rfl
@[simp] theorem buttonIdle_scStopped : (buttonIdle s).scStopped = s.scStopped := rfl
@[simp] theorem buttonIdle_scEvent : (buttonIdle s).scEvent = s.scEvent := rfl
@[simp] theorem buttonIdle_loopStart : (buttonIdle s).loopStart = s.loopStart := rfl
@[simp] theorem buttonIdle_shutdownReq : (buttonIdle s).shutdownReq = s.shutdownReq := rfl
@[simp] theorem buttonIdle_runSensor : (buttonIdle s).runSensor = s.runSensor := rfl
@[simp] theorem buttonIdle_runButton : (buttonIdle s).runButton = s.runButton := rfl
@[simp] theorem buttonIdle_runScroll : (buttonIdle s).runScroll = s.runScroll := rfl
@[simp] theorem buttonIdle_reports : (buttonIdle s).reports = s.reports := rfl
@[simp] theorem buttonIdle_events : (buttonIdle s).events = s.events := rfl
@[simp] theorem buttonIdle_sensorPos : (buttonIdle s).sensorPos = s.sensorPos := rfl
@[simp] theorem buttonIdle_buttonK : (buttonIdle s).buttonK = [] := rfl
@[simp] theorem buttonIdle_buttonSleep : (buttonIdle s).buttonSleep = none := rfl
@[simp] theorem buttonIdle_scrollK : (buttonIdle s).scrollK = s.scrollK := rfl
@[simp] theorem buttonIdle_scrollSleep : (buttonIdle s).scrollSleep = s.scrollSleep := rfl
@[simp] theorem buttonIdle_oracle : (buttonIdle s).oracle = s.oracle := rfl
@[simp] theorem buttonIdle_writeOracle : (buttonIdle s).writeOracle = s.writeOracle := rfl
@[simp] theorem buttonIdle_slacks : (buttonIdle s).slacks = s.slacks := rfl
@[simp] theorem buttonIdle_interludes : (buttonIdle s).interludes = s.interludes := rfl
@[simp] theorem buttonIdle_wire : (buttonIdle s).wire = s.wire := rfl
@[simp] theorem buttonIdle_ret : (buttonIdle s).ret = s.ret := rfl
@[simp] theorem buttonIdle_agenda : (buttonIdle s).agenda = s.agenda := rfl
@[simp] theorem buttonIdle_pos : (buttonIdle s).pos = s.pos := rfl
@[simp] theorem buttonIdle_ended : (buttonIdle s).ended = s.ended := rfl

end

/-! ### `scrollIdle` -/

section
variable  (s : State)

@[simp] theorem scrollIdle_params : (scrollIdle s).params = s.params := rfl
@[simp] theorem scrollIdle_now : (scrollIdle s).now = s.now := rfl
@[simp] theorem scrollIdle_pins : (scrollIdle s).pins = s.pins := rfl
@[simp] theorem scrollIdle_irqPending : (scrollIdle s).irqPending = s.irqPending := rfl
@[simp] theorem scrollIdle_power : (scrollIdle s).power = s.power := rfl
@[simp] theorem scrollIdle_ncs : (scrollIdle s).ncs = s.ncs := rfl
@[simp] theorem scrollIdle_nreset : (scrollIdle s).nreset = s.nreset := rfl
@[simp] theorem scrollIdle_busLast : (scrollIdle s).busLast = s.busLast := rfl
@[simp] theorem scrollIdle_busLastEnd : (scrollIdle s).busLastEnd = s.busLastEnd := rfl
@[simp] theorem scrollIdle_busCorrupt : (scrollIdle s).busCorrupt = s.busCorrupt := rfl
@[simp] theorem scrollIdle_drvState : (scrollIdle s).drvState = s.drvState := rfl
@[simp] theorem scrollIdle_degraded : (scrollIdle s).degraded = s.degraded := rfl
@[simp] theorem scrollIdle_mode : (scrollIdle s).mode = s.mode := rfl
@[simp] theorem scrollIdle_diag : (scrollIdle s).diag = s.diag := rfl
@[simp] theorem scrollIdle_rb : (scrollIdle s).rb = s.rb := rfl
@[simp] theorem scrollIdle_rbW : (scrollIdle s).rbW = s.rbW := rfl
@[simp] theorem scrollIdle_rbR : (scrollIdle s).rbR = s.rbR := rfl
@[simp] theorem scrollIdle_ovfCount : (scrollIdle s).ovfCount = s.ovfCount := rfl
@[simp] theorem scrollIdle_seqPc : (scrollIdle s).seqPc = s.seqPc := rfl
@[simp] theorem scrollIdle_mlState : (scrollIdle s).mlState = s.mlState := rfl
@[simp] theorem scrollIdle_mlFlag : (scrollIdle s).mlFlag = s.mlFlag := rfl
@[simp] theorem scrollIdle_axState : (scrollIdle s).axState = s.axState := rfl
@[simp] theorem scrollIdle_axEvent : (scrollIdle s).axEvent = s.axEvent := rfl
@[simp] theorem scrollIdle_axConfirm : (scrollIdle s).axConfirm = s.axConfirm := rfl
@[simp] theorem scrollIdle_axHoldTs : (scrollIdle s).axHoldTs = s.axHoldTs := rfl
@[simp] theorem scrollIdle_scPhaseA : (scrollIdle s).scPhaseA = s.scPhaseA := rfl
@[simp] theorem scrollIdle_scPhaseB : (scrollIdle s).scPhaseB = s.scPhaseB := rfl
@[simp] theorem scrollIdle_scDir : (scrollIdle s).scDir = s.scDir := rfl
@[simp] theorem scrollIdle_scSpeed : (scrollIdle s).scSpeed = s.scSpeed := rfl
@[simp] theorem scrollIdle_scStopped : (scrollIdle s).scStopped = s.scStopped := rfl
@[simp] theorem scrollIdle_scEvent : (scrollIdle s).scEvent = s.scEvent := rfl
@[simp] theorem scrollIdle_loopStart : (scrollIdle s).loopStart = s.loopStart := rfl
@[simp] theorem scrollIdle_shutdownReq : (scrollIdle s).shutdownReq = s.shutdownReq := rfl
@[simp] theorem scrollIdle_runSensor : (scrollIdle s).runSensor = s.runSensor := rfl
@[simp] theorem scrollIdle_runButton : (scrollIdle s).runButton = s.runButton := rfl
@[simp] theorem scrollIdle_runScroll : (scrollIdle s).runScroll = s.runScroll := rfl
@[simp] theorem scrollIdle_reports : (scrollIdle s).reports = s.reports := rfl
@[simp] theorem scrollIdle_events : (scrollIdle s).events = s.events := rfl
@[simp] theorem scrollIdle_sensorPos : (scrollIdle s).sensorPos = s.sensorPos := rfl
@[simp] theorem scrollIdle_buttonK : (scrollIdle s).buttonK = s.buttonK := rfl
@[simp] theorem scrollIdle_buttonSleep : (scrollIdle s).buttonSleep = s.buttonSleep := rfl
@[simp] theorem scrollIdle_scrollK : (scrollIdle s).scrollK = [] := rfl
@[simp] theorem scrollIdle_scrollSleep : (scrollIdle s).scrollSleep = none := rfl
@[simp] theorem scrollIdle_oracle : (scrollIdle s).oracle = s.oracle := rfl
@[simp] theorem scrollIdle_writeOracle : (scrollIdle s).writeOracle = s.writeOracle := rfl
@[simp] theorem scrollIdle_slacks : (scrollIdle s).slacks = s.slacks := rfl
@[simp] theorem scrollIdle_interludes : (scrollIdle s).interludes = s.interludes := rfl
@[simp] theorem scrollIdle_wire : (scrollIdle s).wire = s.wire := rfl
@[simp] theorem scrollIdle_ret : (scrollIdle s).ret = s.ret := rfl
@[simp] theorem scrollIdle_agenda : (scrollIdle s).agenda = s.agenda := rfl
@[simp] theorem scrollIdle_pos : (scrollIdle s).pos = s.pos := rfl
@[simp] theorem scrollIdle_ended : (scrollIdle s).ended = s.ended := rfl

end

/-! ### `endOfProgram` -/

section
variable  (s : State)

@[simp] theorem endOfProgram_params : (endOfProgram s).params = s.params := rfl
@[simp] theorem endOfProgram_now : (endOfProgram s).now = s.now := rfl
@[simp] theorem endOfProgram_pins : (endOfProgram s).pins = s.pins := rfl
@[simp] theorem endOfProgram_irqPending : (endOfProgram s).irqPending = s.irqPending := rfl
@[simp] theorem endOfProgram_power : (endOfProgram s).power = s.power := rfl
@[simp] theorem endOfProgram_ncs : (endOfProgram s).ncs = s.ncs := rfl
@[simp] theorem endOfProgram_nreset : (endOfProgram s).nreset = s.nreset := rfl
@[simp] theorem endOfProgram_busLast : (endOfProgram s).busLast = s.busLast := rfl
@[simp] theorem endOfProgram_busLastEnd : (endOfProgram s).busLastEnd = s.busLastEnd := rfl
@[simp] theorem endOfProgram_busCorrupt : (endOfProgram s).busCorrupt = s.busCorrupt := rfl
@[simp] theorem endOfProgram_drvState : (endOfProgram s).drvState = s.drvState := rfl
@[simp] theorem endOfProgram_degraded : (endOfProgram s).degraded = s.degraded := rfl
@[simp] theorem endOfProgram_mode : (endOfProgram s).mode = s.mode := rfl
@[simp] theorem endOfProgram_diag : (endOfProgram s).diag = s.diag := rfl
@[simp] theorem endOfProgram_rb : (endOfProgram s).rb = s.rb := rfl
@[simp] theorem endOfProgram_rbW : (endOfProgram s).rbW = s.rbW := rfl
@[simp] theorem endOfProgram_rbR : (endOfProgram s).rbR = s.rbR := rfl
@[simp] theorem endOfProgram_ovfCount : (endOfProgram s).ovfCount = s.ovfCount := rfl
@[simp] theorem endOfProgram_seqPc : (endOfProgram s).seqPc = s.seqPc := rfl
@[simp] theorem endOfProgram_mlState : (endOfProgram s).mlState = s.mlState := rfl
@[simp] theorem endOfProgram_mlFlag : (endOfProgram s).mlFlag = s.mlFlag := rfl
@[simp] theorem endOfProgram_axState : (endOfProgram s).axState = s.axState := rfl
@[simp] theorem endOfProgram_axEvent : (endOfProgram s).axEvent = s.axEvent := rfl
@[simp] theorem endOfProgram_axConfirm : (endOfProgram s).axConfirm = s.axConfirm := rfl
@[simp] theorem endOfProgram_axHoldTs : (endOfProgram s).axHoldTs = s.axHoldTs := rfl
@[simp] theorem endOfProgram_scPhaseA : (endOfProgram s).scPhaseA = s.scPhaseA := rfl
@[simp] theorem endOfProgram_scPhaseB : (endOfProgram s).scPhaseB = s.scPhaseB := rfl
@[simp] theorem endOfProgram_scDir : (endOfProgram s).scDir = s.scDir := rfl
@[simp] theorem endOfProgram_scSpeed : (endOfProgram s).scSpeed = s.scSpeed := rfl
@[simp] theorem endOfProgram_scStopped : (endOfProgram s).scStopped = s.scStopped := rfl
@[simp] theorem endOfProgram_scEvent : (endOfProgram s).scEvent = s.scEvent := rfl
@[simp] theorem endOfProgram_loopStart : (endOfProgram s).loopStart = s.loopStart := rfl
@[simp] theorem endOfProgram_shutdownReq : (endOfProgram s).shutdownReq = s.shutdownReq := rfl
@[simp] theorem endOfProgram_runSensor : (endOfProgram s).runSensor = s.runSensor := rfl
@[simp] theorem endOfProgram_runButton : (endOfProgram s).runButton = s.runButton := rfl
@[simp] theorem endOfProgram_runScroll : (endOfProgram s).runScroll = s.runScroll := rfl
@[simp] theorem endOfProgram_reports : (endOfProgram s).reports = s.reports := rfl
@[simp] theorem endOfProgram_events : (endOfProgram s).events = s.events := rfl
@[simp] theorem endOfProgram_sensorPos : (endOfProgram s).sensorPos = s.sensorPos := rfl
@[simp] theorem endOfProgram_buttonK : (endOfProgram s).buttonK = s.buttonK := rfl
@[simp] theorem endOfProgram_buttonSleep : (endOfProgram s).buttonSleep = s.buttonSleep := rfl
@[simp] theorem endOfProgram_scrollK : (endOfProgram s).scrollK = s.scrollK := rfl
@[simp] theorem endOfProgram_scrollSleep : (endOfProgram s).scrollSleep = s.scrollSleep := rfl
@[simp] theorem endOfProgram_oracle : (endOfProgram s).oracle = s.oracle := rfl
@[simp] theorem endOfProgram_writeOracle : (endOfProgram s).writeOracle = s.writeOracle := rfl
@[simp] theorem endOfProgram_slacks : (endOfProgram s).slacks = s.slacks := rfl
@[simp] theorem endOfProgram_interludes : (endOfProgram s).interludes = s.interludes := rfl
@[simp] theorem endOfProgram_wire : (endOfProgram s).wire = s.wire := rfl
@[simp] theorem endOfProgram_ret : (endOfProgram s).ret = s.ret := rfl
@[simp] theorem endOfProgram_agenda : (endOfProgram s).agenda = s.agenda := rfl
@[simp] theorem endOfProgram_pos : (endOfProgram s).pos = s.pos := rfl
@[simp] theorem endOfProgram_ended : (endOfProgram s).ended = true := rfl

end

/-! ### `requestShutdown` -/

section
variable  (s : State)

@[simp] theorem requestShutdown_params : (requestShutdown s).params = s.params := rfl
@[simp] theorem requestShutdown_now : (requestShutdown s).now = s.now := rfl
@[simp] theorem requestShutdown_pins : (requestShutdown s).pins = s.pins := rfl
@[simp] theorem requestShutdown_irqPending : (requestShutdown s).irqPending = s.irqPending := rfl
@[simp] theorem requestShutdown_power : (requestShutdown s).power = s.power := rfl
@[simp] theorem requestShutdown_ncs : (requestShutdown s).ncs = s.ncs := rfl
@[simp] theorem requestShutdown_nreset : (requestShutdown s).nreset = s.nreset := rfl
@[simp] theorem requestShutdown_busLast : (requestShutdown s).busLast = s.busLast := rfl
@[simp] theorem requestShutdown_busLastEnd : (requestShutdown s).busLastEnd = s.busLastEnd := rfl
@[simp] theorem requestShutdown_busCorrupt : (requestShutdown s).busCorrupt = s.busCorrupt := rfl
@[simp] theorem requestShutdown_drvState : (requestShutdown s).drvState = s.drvState := rfl
@[simp] theorem requestShutdown_degraded : (requestShutdown s).degraded = s.degraded := rfl
@[simp] theorem requestShutdown_mode : (requestShutdown s).mode = s.mode := rfl
@[simp] theorem requestShutdown_diag : (requestShutdown s).diag = s.diag := rfl
@[simp] theorem requestShutdown_rb : (requestShutdown s).rb = s.rb := rfl
@[simp] theorem requestShutdown_rbW : (requestShutdown s).rbW = s.rbW := rfl
@[simp] theorem requestShutdown_rbR : (requestShutdown s).rbR = s.rbR := rfl
@[simp] theorem requestShutdown_ovfCount : (requestShutdown s).ovfCount = s.ovfCount := rfl
@[simp] theorem requestShutdown_seqPc : (requestShutdown s).seqPc = s.seqPc := rfl
@[simp] theorem requestShutdown_mlState : (requestShutdown s).mlState = s.mlState := rfl
@[simp] theorem requestShutdown_mlFlag : (requestShutdown s).mlFlag = s.mlFlag := rfl
@[simp] theorem requestShutdown_axState : (requestShutdown s).axState = s.axState := rfl
@[simp] theorem requestShutdown_axEvent : (requestShutdown s).axEvent = s.axEvent := rfl
@[simp] theorem requestShutdown_axConfirm : (requestShutdown s).axConfirm = s.axConfirm := rfl
@[simp] theorem requestShutdown_axHoldTs : (requestShutdown s).axHoldTs = s.axHoldTs := rfl
@[simp] theorem requestShutdown_scPhaseA : (requestShutdown s).scPhaseA = s.scPhaseA := rfl
@[simp] theorem requestShutdown_scPhaseB : (requestShutdown s).scPhaseB = s.scPhaseB := rfl
@[simp] theorem requestShutdown_scDir : (requestShutdown s).scDir = s.scDir := rfl
@[simp] theorem requestShutdown_scSpeed : (requestShutdown s).scSpeed = s.scSpeed := rfl
@[simp] theorem requestShutdown_scStopped : (requestShutdown s).scStopped = s.scStopped := rfl
@[simp] theorem requestShutdown_scEvent : (requestShutdown s).scEvent = s.scEvent := rfl
@[simp] theorem requestShutdown_loopStart : (requestShutdown s).loopStart = s.loopStart := rfl
@[simp] theorem requestShutdown_shutdownReq : (requestShutdown s).shutdownReq = true := rfl
@[simp] theorem requestShutdown_runSensor : (requestShutdown s).runSensor = s.runSensor := rfl
@[simp] theorem requestShutdown_runButton : (requestShutdown s).runButton = s.runButton := rfl
@[simp] theorem requestShutdown_runScroll : (requestShutdown s).runScroll = s.runScroll := rfl
@[simp] theorem requestShutdown_reports : (requestShutdown s).reports = s.reports := rfl
@[simp] theorem requestShutdown_events : (requestShutdown s).events = s.events := rfl
@[simp] theorem requestShutdown_sensorPos : (requestShutdown s).sensorPos = s.sensorPos := rfl
@[simp] theorem requestShutdown_buttonK : (requestShutdown s).buttonK = s.buttonK := rfl
@[simp] theorem requestShutdown_buttonSleep : (requestShutdown s).buttonSleep = s.buttonSleep := rfl
@[simp] theorem requestShutdown_scrollK : (requestShutdown s).scrollK = s.scrollK := rfl
@[simp] theorem requestShutdown_scrollSleep : (requestShutdown s).scrollSleep = s.scrollSleep := rfl
@[simp] theorem requestShutdown_oracle : (requestShutdown s).oracle = s.oracle := rfl
@[simp] theorem requestShutdown_writeOracle : (requestShutdown s).writeOracle = s.writeOracle := rfl
@[simp] theorem requestShutdown_slacks : (requestShutdown s).slacks = s.slacks := rfl
@[simp] theorem requestShutdown_interludes : (requestShutdown s).interludes = s.interludes := rfl
@[simp] theorem requestShutdown_wire : (requestShutdown s).wire = s.wire := rfl
@[simp] theorem requestShutdown_ret : (requestShutdown s).ret = s.ret := rfl
@[simp] theorem requestShutdown_agenda : (requestShutdown s).agenda = s.agenda := rfl
@[simp] theorem requestShutdown_pos : (requestShutdown s).pos = s.pos := rfl
@[simp] theorem requestShutdown_ended : (requestShutdown s).ended = s.ended := rfl

end

/-! ### `endTransaction` -/

section
variable (k : BusKind) (s : State)

@[simp] theorem endTransaction_params : (endTransaction k s).params = s.params := rfl
@[simp] theorem endTransaction_now : (endTransaction k s).now = s.now := rfl
@[simp] theorem endTransaction_pins : (endTransaction k s).pins = s.pins := rfl
@[simp] theorem endTransaction_irqPending : (endTransaction k s).irqPending = s.irqPending := rfl
@[simp] theorem endTransaction_power : (endTransaction k s).power = s.power := rfl
@[simp] theorem endTransaction_ncs : (endTransaction k s).ncs = true := rfl
@[simp] theorem endTransaction_nreset : (endTransaction k s).nreset = s.nreset := rfl
@[simp] theorem endTransaction_busLast : (endTransaction k s).busLast = k := rfl
@[simp] theorem endTransaction_busLastEnd : (endTransaction k s).busLastEnd = s.now := rfl
@[simp] theorem endTransaction_busCorrupt : (endTransaction k s).busCorrupt = s.busCorrupt := rfl
@[simp] theorem endTransaction_drvState : (endTransaction k s).drvState = s.drvState := rfl
@[simp] theorem endTransaction_degraded : (endTransaction k s).degraded = s.degraded := rfl
@[simp] theorem endTransaction_mode : (endTransaction k s).mode = s.mode := rfl
@[simp] theorem endTransaction_diag : (endTransaction k s).diag = s.diag := rfl
@[simp] theorem endTransaction_rb : (endTransaction k s).rb = s.rb := rfl
@[simp] theorem endTransaction_rbW : (endTransaction k s).rbW = s.rbW := rfl
@[simp] theorem endTransaction_rbR : (endTransaction k s).rbR = s.rbR := rfl
@[simp] theorem endTransaction_ovfCount : (endTransaction k s).ovfCount = s.ovfCount := rfl
@[simp] theorem endTransaction_seqPc : (endTransaction k s).seqPc = s.seqPc := rfl
@[simp] theorem endTransaction_mlState : (endTransaction k s).mlState = s.mlState := rfl
@[simp] theorem endTransaction_mlFlag : (endTransaction k s).mlFlag = s.mlFlag := rfl
@[simp] theorem endTransaction_axState : (endTransaction k s).axState = s.axState := rfl
@[simp] theorem endTransaction_axEvent : (endTransaction k s).axEvent = s.axEvent := rfl
@[simp] theorem endTransaction_axConfirm : (endTransaction k s).axConfirm = s.axConfirm := rfl
@[simp] theorem endTransaction_axHoldTs : (endTransaction k s).axHoldTs = s.axHoldTs := rfl
@[simp] theorem endTransaction_scPhaseA : (endTransaction k s).scPhaseA = s.scPhaseA := rfl
@[simp] theorem endTransaction_scPhaseB : (endTransaction k s).scPhaseB = s.scPhaseB := rfl
@[simp] theorem endTransaction_scDir : (endTransaction k s).scDir = s.scDir := rfl
@[simp] theorem endTransaction_scSpeed : (endTransaction k s).scSpeed = s.scSpeed := rfl
@[simp] theorem endTransaction_scStopped : (endTransaction k s).scStopped = s.scStopped := rfl
@[simp] theorem endTransaction_scEvent : (endTransaction k s).scEvent = s.scEvent := rfl
@[simp] theorem endTransaction_loopStart : (endTransaction k s).loopStart = s.loopStart := rfl
@[simp] theorem endTransaction_shutdownReq : (endTransaction k s).shutdownReq = s.shutdownReq := rfl
@[simp] theorem endTransaction_runSensor : (endTransaction k s).runSensor = s.runSensor := rfl
@[simp] theorem endTransaction_runButton : (endTransaction k s).runButton = s.runButton := rfl
@[simp] theorem endTransaction_runScroll : (endTransaction k s).runScroll = s.runScroll := rfl
@[simp] theorem endTransaction_reports : (endTransaction k s).reports = s.reports := rfl
@[simp] theorem endTransaction_events : (endTransaction k s).events = s.events := rfl
@[simp] theorem endTransaction_sensorPos : (endTransaction k s).sensorPos = s.sensorPos := rfl
@[simp] theorem endTransaction_buttonK : (endTransaction k s).buttonK = s.buttonK := rfl
@[simp] theorem endTransaction_buttonSleep : (endTransaction k s).buttonSleep = s.buttonSleep := rfl
@[simp] theorem endTransaction_scrollK : (endTransaction k s).scrollK = s.scrollK := rfl
@[simp] theorem endTransaction_scrollSleep : (endTransaction k s).scrollSleep = s.scrollSleep := rfl
@[simp] theorem endTransaction_oracle : (endTransaction k s).oracle = s.oracle := rfl
@[simp] theorem endTransaction_writeOracle : (endTransaction k s).writeOracle = s.writeOracle := rfl
@[simp] theorem endTransaction_slacks : (endTransaction k s).slacks = s.slacks := rfl
@[simp] theorem endTransaction_interludes : (endTransaction k s).interludes = s.interludes := rfl
@[simp] theorem endTransaction_wire : (endTransaction k s).wire = s.wire ++ [.ncs true s.now] := rfl
@[simp] theorem endTransaction_ret : (endTransaction k s).ret = s.ret := rfl
@[simp] theorem endTransaction_agenda : (endTransaction k s).agenda = s.agenda := rfl
@[simp] theorem endTransaction_pos : (endTransaction k s).pos = s.pos := rfl
@[simp] theorem endTransaction_ended : (endTransaction k s).ended = s.ended := rfl

end

/-! ### `settled` -/

section
variable  (s : State)

@[simp] theorem settled_params : (settled s).params = s.params := rfl
@[simp] theorem settled_now : (settled s).now = s.now := rfl
@[simp] theorem settled_pins : (settled s).pins = s.pins := rfl
@[simp] theorem settled_irqPending : (settled s).irqPending = s.irqPending := rfl
@[simp] theorem settled_power : (settled s).power = s.power := rfl
@[simp] theorem settled_ncs : (settled s).ncs = s.ncs := rfl
@[simp] theorem settled_nreset : (settled s).nreset = s.nreset := rfl
@[simp] theorem settled_busLast : (settled s).busLast = .none := rfl
@[simp] theorem settled_busLastEnd : (settled s).busLastEnd = s.busLastEnd := rfl
@[simp] theorem settled_busCorrupt : (settled s).busCorrupt = s.busCorrupt := rfl
@[simp] theorem settled_drvState : (settled s).drvState = .programming := rfl
@[simp] theorem settled_degraded : (settled s).degraded = s.degraded := rfl
@[simp] theorem settled_mode : (settled s).mode = s.mode := rfl
@[simp] theorem settled_diag : (settled s).diag = s.diag := rfl
@[simp] theorem settled_rb : (settled s).rb = s.rb := rfl
@[simp] theorem settled_rbW : (settled s).rbW = s.rbW := rfl
@[simp] theorem settled_rbR : (settled s).rbR = s.rbR := rfl
@[simp] theorem settled_ovfCount : (settled s).ovfCount = s.ovfCount := rfl
@[simp] theorem settled_seqPc : (settled s).seqPc = ⟨.first, 0, 0⟩ := rfl
@[simp] theorem settled_mlState : (settled s).mlState = s.mlState := rfl
@[simp] theorem settled_mlFlag : (settled s).mlFlag = s.mlFlag := rfl
@[simp] theorem settled_axState : (settled s).axState = s.axState := rfl
@[simp] theorem settled_axEvent : (settled s).axEvent = s.axEvent := rfl
@[simp] theorem settled_axConfirm : (settled s).axConfirm = s.axConfirm := rfl
@[simp] theorem settled_axHoldTs : (settled s).axHoldTs = s.axHoldTs := rfl
@[simp] theorem settled_scPhaseA : (settled s).scPhaseA = s.scPhaseA := rfl
@[simp] theorem settled_scPhaseB : (settled s).scPhaseB = s.scPhaseB := rfl
@[simp] theorem settled_scDir : (settled s).scDir = s.scDir := rfl
@[simp] theorem settled_scSpeed : (settled s).scSpeed = s.scSpeed := rfl
@[simp] theorem settled_scStopped : (settled s).scStopped = s.scStopped := rfl
@[simp] theorem settled_scEvent : (settled s).scEvent = s.scEvent := rfl
@[simp] theorem settled_loopStart : (settled s).loopStart = s.loopStart := rfl
@[simp] theorem settled_shutdownReq : (settled s).shutdownReq = s.shutdownReq := rfl
@[simp] theorem settled_runSensor : (settled s).runSensor = s.runSensor := rfl
@[simp] theorem settled_runButton : (settled s).runButton = s.runButton := rfl
@[simp] theorem settled_runScroll : (settled s).runScroll = s.runScroll := rfl
@[simp] theorem settled_reports : (settled s).reports = s.reports := rfl
@[simp] theorem settled_events : (settled s).events = s.events := rfl
@[simp] theorem settled_sensorPos : (settled s).sensorPos = s.sensorPos := rfl
@[simp] theorem settled_buttonK : (settled s).buttonK = s.buttonK := rfl
@[simp] theorem settled_buttonSleep : (settled s).buttonSleep = s.buttonSleep := rfl
@[simp] theorem settled_scrollK : (settled s).scrollK = s.scrollK := rfl
@[simp] theorem settled_scrollSleep : (settled s).scrollSleep = s.scrollSleep := rfl
@[simp] theorem settled_oracle : (settled s).oracle = s.oracle := rfl
@[simp] theorem settled_writeOracle : (settled s).writeOracle = s.writeOracle := rfl
@[simp] theorem settled_slacks : (settled s).slacks = s.slacks := rfl
@[simp] theorem settled_interludes : (settled s).interludes = s.interludes := rfl
@[simp] theorem settled_wire : (settled s).wire = s.wire := rfl
@[simp] theorem settled_ret : (settled s).ret = s.ret := rfl
@[simp] theorem settled_agenda : (settled s).agenda = s.agenda := rfl
@[simp] theorem settled_pos : (settled s).pos = s.pos := rfl
@[simp] theorem settled_ended : (settled s).ended = s.ended := rfl

end

/-! ### `motionValid` -/

section
variable  (s : State)

@[simp] theorem motionValid_params : (motionValid s).params = s.params := rfl
@[simp] theorem motionValid_now : (motionValid s).now = s.now := rfl
@[simp] theorem motionValid_pins : (motionValid s).pins = s.pins := rfl
@[simp] theorem motionValid_irqPending : (motionValid s).irqPending = s.irqPending := rfl
@[simp] theorem motionValid_power : (motionValid s).power = s.power := rfl
@[simp] theorem motionValid_ncs : (motionValid s).ncs = s.ncs := rfl
@[simp] theorem motionValid_nreset : (motionValid s).nreset = s.nreset := rfl
@[simp] theorem motionValid_busLast : (motionValid s).busLast = s.busLast := rfl
@[simp] theorem motionValid_busLastEnd : (motionValid s).busLastEnd = s.busLastEnd := rfl
@[simp] theorem motionValid_busCorrupt : (motionValid s).busCorrupt = s.busCorrupt := rfl
@[simp] theorem motionValid_drvState : (motionValid s).drvState = .streaming := rfl
@[simp] theorem motionValid_degraded : (motionValid s).degraded = s.degraded := rfl
@[simp] theorem motionValid_mode : (motionValid s).mode = s.mode := rfl
@[simp] theorem motionValid_diag : (motionValid s).diag = s.diag := rfl
@[simp] theorem motionValid_rb : (motionValid s).rb = s.rb := rfl
@[simp] theorem motionValid_rbW : (motionValid s).rbW = s.rbW := rfl
@[simp] theorem motionValid_rbR : (motionValid s).rbR = s.rbR := rfl
@[simp] theorem motionValid_ovfCount : (motionValid s).ovfCount = s.ovfCount := rfl
@[simp] theorem motionValid_seqPc : (motionValid s).seqPc = ⟨.stream, 0, s.seqPc.attempt⟩ := rfl
@[simp] theorem motionValid_mlState : (motionValid s).mlState = s.mlState := rfl
@[simp] theorem motionValid_mlFlag : (motionValid s).mlFlag = s.mlFlag := rfl
@[simp] theorem motionValid_axState : (motionValid s).axState = s.axState := rfl
@[simp] theorem motionValid_axEvent : (motionValid s).axEvent = s.axEvent := rfl
@[simp] theorem motionValid_axConfirm : (motionValid s).axConfirm = s.axConfirm := rfl
@[simp] theorem motionValid_axHoldTs : (motionValid s).axHoldTs = s.axHoldTs := rfl
@[simp] theorem motionValid_scPhaseA : (motionValid s).scPhaseA = s.scPhaseA := rfl
@[simp] theorem motionValid_scPhaseB : (motionValid s).scPhaseB = s.scPhaseB := rfl
@[simp] theorem motionValid_scDir : (motionValid s).scDir = s.scDir := rfl
@[simp] theorem motionValid_scSpeed : (motionValid s).scSpeed = s.scSpeed := rfl
@[simp] theorem motionValid_scStopped : (motionValid s).scStopped = s.scStopped := rfl
@[simp] theorem motionValid_scEvent : (motionValid s).scEvent = s.scEvent := rfl
@[simp] theorem motionValid_loopStart : (motionValid s).loopStart = s.loopStart := rfl
@[simp] theorem motionValid_shutdownReq : (motionValid s).shutdownReq = s.shutdownReq := rfl
@[simp] theorem motionValid_runSensor : (motionValid s).runSensor = s.runSensor := rfl
@[simp] theorem motionValid_runButton : (motionValid s).runButton = s.runButton := rfl
@[simp] theorem motionValid_runScroll : (motionValid s).runScroll = s.runScroll := rfl
@[simp] theorem motionValid_reports : (motionValid s).reports = s.reports := rfl
@[simp] theorem motionValid_events : (motionValid s).events = s.events := rfl
@[simp] theorem motionValid_sensorPos : (motionValid s).sensorPos = s.sensorPos := rfl
@[simp] theorem motionValid_buttonK : (motionValid s).buttonK = s.buttonK := rfl
@[simp] theorem motionValid_buttonSleep : (motionValid s).buttonSleep = s.buttonSleep := rfl
@[simp] theorem motionValid_scrollK : (motionValid s).scrollK = s.scrollK := rfl
@[simp] theorem motionValid_scrollSleep : (motionValid s).scrollSleep = s.scrollSleep := rfl
@[simp] theorem motionValid_oracle : (motionValid s).oracle = s.oracle := rfl
@[simp] theorem motionValid_writeOracle : (motionValid s).writeOracle = s.writeOracle := rfl
@[simp] theorem motionValid_slacks : (motionValid s).slacks = s.slacks := rfl
@[simp] theorem motionValid_interludes : (motionValid s).interludes = s.interludes := rfl
@[simp] theorem motionValid_wire : (motionValid s).wire = s.wire := rfl
@[simp] theorem motionValid_ret : (motionValid s).ret = s.ret := rfl
@[simp] theorem motionValid_agenda : (motionValid s).agenda = s.agenda := rfl
@[simp] theorem motionValid_pos : (motionValid s).pos = s.pos := rfl
@[simp] theorem motionValid_ended : (motionValid s).ended = s.ended := rfl

end

/-! ### `goTo` -/

section
variable (p : SensorPos) (s : State)

@[simp] theorem goTo_params : (goTo p s).params = s.params := rfl
@[simp] theorem goTo_now : (goTo p s).now = s.now := rfl
@[simp] theorem goTo_pins : (goTo p s).pins = s.pins := rfl
@[simp] theorem goTo_irqPending : (goTo p s).irqPending = s.irqPending := rfl
@[simp] theorem goTo_power : (goTo p s).power = s.power := rfl
@[simp] theorem goTo_ncs : (goTo p s).ncs = s.ncs := rfl
@[simp] theorem goTo_nreset : (goTo p s).nreset = s.nreset := rfl
@[simp] theorem goTo_busLast : (goTo p s).busLast = s.busLast := rfl
@[simp] theorem goTo_busLastEnd : (goTo p s).busLastEnd = s.busLastEnd := rfl
@[simp] theorem goTo_busCorrupt : (goTo p s).busCorrupt = s.busCorrupt := rfl
@[simp] theorem goTo_drvState : (goTo p s).drvState = s.drvState := rfl
@[simp] theorem goTo_degraded : (goTo p s).degraded = s.degraded := rfl
@[simp] theorem goTo_mode : (goTo p s).mode = s.mode := rfl
@[simp] theorem goTo_diag : (goTo p s).diag = s.diag := rfl
@[simp] theorem goTo_rb : (goTo p s).rb = s.rb := rfl
@[simp] theorem goTo_rbW : (goTo p s).rbW = s.rbW := rfl
@[simp] theorem goTo_rbR : (goTo p s).rbR = s.rbR := rfl
@[simp] theorem goTo_ovfCount : (goTo p s).ovfCount = s.ovfCount := rfl
@[simp] theorem goTo_seqPc : (goTo p s).seqPc = s.seqPc := rfl
@[simp] theorem goTo_mlState : (goTo p s).mlState = s.mlState := rfl
@[simp] theorem goTo_mlFlag : (goTo p s).mlFlag = s.mlFlag := rfl
@[simp] theorem goTo_axState : (goTo p s).axState = s.axState := rfl
@[simp] theorem goTo_axEvent : (goTo p s).axEvent = s.axEvent := rfl
@[simp] theorem goTo_axConfirm : (goTo p s).axConfirm = s.axConfirm := rfl
@[simp] theorem goTo_axHoldTs : (goTo p s).axHoldTs = s.axHoldTs := rfl
@[simp] theorem goTo_scPhaseA : (goTo p s).scPhaseA = s.scPhaseA := rfl
@[simp] theorem goTo_scPhaseB : (goTo p s).scPhaseB = s.scPhaseB := rfl
@[simp] theorem goTo_scDir : (goTo p s).scDir = s.scDir := rfl
@[simp] theorem goTo_scSpeed : (goTo p s).scSpeed = s.scSpeed := rfl
@[simp] theorem goTo_scStopped : (goTo p s).scStopped = s.scStopped := rfl
@[simp] theorem goTo_scEvent : (goTo p s).scEvent = s.scEvent := rfl
@[simp] theorem goTo_loopStart : (goTo p s).loopStart = s.loopStart := rfl
@[simp] theorem goTo_shutdownReq : (goTo p s).shutdownReq = s.shutdownReq := rfl
@[simp] theorem goTo_runSensor : (goTo p s).runSensor = s.runSensor := rfl
@[simp] theorem goTo_runButton : (goTo p s).runButton = s.runButton := rfl
@[simp] theorem goTo_runScroll : (goTo p s).runScroll = s.runScroll := rfl
@[simp] theorem goTo_reports : (goTo p s).reports = s.reports := rfl
@[simp] theorem goTo_events : (goTo p s).events = s.events := rfl
@[simp] theorem goTo_sensorPos : (goTo p s).sensorPos = p := rfl
@[simp] theorem goTo_buttonK : (goTo p s).buttonK = s.buttonK := rfl
@[simp] theorem goTo_buttonSleep : (goTo p s).buttonSleep = s.buttonSleep := rfl
@[simp] theorem goTo_scrollK : (goTo p s).scrollK = s.scrollK := rfl
@[simp] theorem goTo_scrollSleep : (goTo p s).scrollSleep = s.scrollSleep := rfl
@[simp] theorem goTo_oracle : (goTo p s).oracle = s.oracle := rfl
@[simp] theorem goTo_writeOracle : (goTo p s).writeOracle = s.writeOracle := rfl
@[simp] theorem goTo_slacks : (goTo p s).slacks = s.slacks := rfl
@[simp] theorem goTo_interludes : (goTo p s).interludes = s.interludes := rfl
@[simp] theorem goTo_wire : (goTo p s).wire = s.wire := rfl
@[simp] theorem goTo_ret : (goTo p s).ret = s.ret := rfl
@[simp] theorem goTo_agenda : (goTo p s).agenda = s.agenda := rfl
@[simp] theorem goTo_pos : (goTo p s).pos = s.pos := rfl
@[simp] theorem goTo_ended : (goTo p s).ended = s.ended := rfl

end

/-! ### `corruptIf` -/

section
variable (b : Bool) (s : State)

@[simp] theorem corruptIf_params : (corruptIf b s).params = s.params := rfl
@[simp] theorem corruptIf_now : (corruptIf b s).now = s.now := rfl
@[simp] theorem corruptIf_pins : (corruptIf b s).pins = s.pins := rfl
@[simp] theorem corruptIf_irqPending : (corruptIf b s).irqPending = s.irqPending := rfl
@[simp] theorem corruptIf_power : (corruptIf b s).power = s.power := rfl
@[simp] theorem corruptIf_ncs : (corruptIf b s).ncs = s.ncs := rfl
@[simp] theorem corruptIf_nreset : (corruptIf b s).nreset = s.nreset := rfl
@[simp] theorem corruptIf_busLast : (corruptIf b s).busLast = s.busLast := rfl
@[simp] theorem corruptIf_busLastEnd : (corruptIf b s).busLastEnd = s.busLastEnd := rfl
@[simp] theorem corruptIf_busCorrupt : (corruptIf b s).busCorrupt = (s.busCorrupt || b) := rfl
@[simp] theorem corruptIf_drvState : (corruptIf b s).drvState = s.drvState := rfl
@[simp] theorem corruptIf_degraded : (corruptIf b s).degraded = s.degraded := rfl
@[simp] theorem corruptIf_mode : (corruptIf b s).mode = s.mode := rfl
@[simp] theorem corruptIf_diag : (corruptIf b s).diag = s.diag := rfl
@[simp] theorem corruptIf_rb : (corruptIf b s).rb = s.rb := rfl
@[simp] theorem corruptIf_rbW : (corruptIf b s).rbW = s.rbW := rfl
@[simp] theorem corruptIf_rbR : (corruptIf b s).rbR = s.rbR := rfl
@[simp] theorem corruptIf_ovfCount : (corruptIf b s).ovfCount = s.ovfCount := rfl
@[simp] theorem corruptIf_seqPc : (corruptIf b s).seqPc = s.seqPc := rfl
@[simp] theorem corruptIf_mlState : (corruptIf b s).mlState = s.mlState := rfl
@[simp] theorem corruptIf_mlFlag : (corruptIf b s).mlFlag = s.mlFlag := rfl
@[simp] theorem corruptIf_axState : (corruptIf b s).axState = s.axState := rfl
@[simp] theorem corruptIf_axEvent : (corruptIf b s).axEvent = s.axEvent := rfl
@[simp] theorem corruptIf_axConfirm : (corruptIf b s).axConfirm = s.axConfirm := rfl
@[simp] theorem corruptIf_axHoldTs : (corruptIf b s).axHoldTs = s.axHoldTs := rfl
@[simp] theorem corruptIf_scPhaseA : (corruptIf b s).scPhaseA = s.scPhaseA := rfl
@[simp] theorem corruptIf_scPhaseB : (corruptIf b s).scPhaseB = s.scPhaseB := rfl
@[simp] theorem corruptIf_scDir : (corruptIf b s).scDir = s.scDir := rfl
@[simp] theorem corruptIf_scSpeed : (corruptIf b s).scSpeed = s.scSpeed := rfl
@[simp] theorem corruptIf_scStopped : (corruptIf b s).scStopped = s.scStopped := rfl
@[simp] theorem corruptIf_scEvent : (corruptIf b s).scEvent = s.scEvent := rfl
@[simp] theorem corruptIf_loopStart : (corruptIf b s).loopStart = s.loopStart := rfl
@[simp] theorem corruptIf_shutdownReq : (corruptIf b s).shutdownReq = s.shutdownReq := rfl
@[simp] theorem corruptIf_runSensor : (corruptIf b s).runSensor = s.runSensor := rfl
@[simp] theorem corruptIf_runButton : (corruptIf b s).runButton = s.runButton := rfl
@[simp] theorem corruptIf_runScroll : (corruptIf b s).runScroll = s.runScroll := rfl
@[simp] theorem corruptIf_reports : (corruptIf b s).reports = s.reports := rfl
@[simp] theorem corruptIf_events : (corruptIf b s).events = s.events := rfl
@[simp] theorem corruptIf_sensorPos : (corruptIf b s).sensorPos = s.sensorPos := rfl
@[simp] theorem corruptIf_buttonK : (corruptIf b s).buttonK = s.buttonK := rfl
@[simp] theorem corruptIf_buttonSleep : (corruptIf b s).buttonSleep = s.buttonSleep := rfl
@[simp] theorem corruptIf_scrollK : (corruptIf b s).scrollK = s.scrollK := rfl
@[simp] theorem corruptIf_scrollSleep : (corruptIf b s).scrollSleep = s.scrollSleep := rfl
@[simp] theorem corruptIf_oracle : (corruptIf b s).oracle = s.oracle := rfl
@[simp] theorem corruptIf_writeOracle : (corruptIf b s).writeOracle = s.writeOracle := rfl
@[simp] theorem corruptIf_slacks : (corruptIf b s).slacks = s.slacks := rfl
@[simp] theorem corruptIf_interludes : (corruptIf b s).interludes = s.interludes := rfl
@[simp] theorem corruptIf_wire : (corruptIf b s).wire = s.wire := rfl
@[simp] theorem corruptIf_ret : (corruptIf b s).ret = s.ret := rfl
@[simp] theorem corruptIf_agenda : (corruptIf b s).agenda = s.agenda := rfl
@[simp] theorem corruptIf_pos : (corruptIf b s).pos = s.pos := rfl
@[simp] theorem corruptIf_ended : (corruptIf b s).ended = s.ended := rfl

end

/-! ### `finishItem` -/

section
variable  (s : State)

@[simp] theorem finishItem_params : (finishItem s).params = s.params := rfl
@[simp] theorem finishItem_now : (finishItem s).now = s.now := rfl
@[simp] theorem finishItem_pins : (finishItem s).pins = s.pins := rfl
@[simp] theorem finishItem_irqPending : (finishItem s).irqPending = s.irqPending := rfl
@[simp] theorem finishItem_power : (finishItem s).power = s.power := rfl
@[simp] theorem finishItem_ncs : (finishItem s).ncs = s.ncs := rfl
@[simp] theorem finishItem_nreset : (finishItem s).nreset = s.nreset := rfl
@[simp] theorem finishItem_busLast : (finishItem s).busLast = s.busLast := rfl
@[simp] theorem finishItem_busLastEnd : (finishItem s).busLastEnd = s.busLastEnd := rfl
@[simp] theorem finishItem_busCorrupt : (finishItem s).busCorrupt = s.busCorrupt := rfl
@[simp] theorem finishItem_drvState : (finishItem s).drvState = s.drvState := rfl
@[simp] theorem finishItem_degraded : (finishItem s).degraded = s.degraded := rfl
@[simp] theorem finishItem_mode : (finishItem s).mode = s.mode := rfl
@[simp] theorem finishItem_diag : (finishItem s).diag = s.diag := rfl
@[simp] theorem finishItem_rb : (finishItem s).rb = s.rb := rfl
@[simp] theorem finishItem_rbW : (finishItem s).rbW = s.rbW := rfl
@[simp] theorem finishItem_rbR : (finishItem s).rbR = s.rbR := rfl
@[simp] theorem finishItem_ovfCount : (finishItem s).ovfCount = s.ovfCount := rfl
@[simp] theorem finishItem_seqPc : (finishItem s).seqPc = s.seqPc := rfl
@[simp] theorem finishItem_mlState : (finishItem s).mlState = s.mlState := rfl
@[simp] theorem finishItem_mlFlag : (finishItem s).mlFlag = s.mlFlag := rfl
@[simp] theorem finishItem_axState : (finishItem s).axState = s.axState := rfl
@[simp] theorem finishItem_axEvent : (finishItem s).axEvent = s.axEvent := rfl
@[simp] theorem finishItem_axConfirm : (finishItem s).axConfirm = s.axConfirm := rfl
@[simp] theorem finishItem_axHoldTs : (finishItem s).axHoldTs = s.axHoldTs := rfl
@[simp] theorem finishItem_scPhaseA : (finishItem s).scPhaseA = s.scPhaseA := rfl
@[simp] theorem finishItem_scPhaseB : (finishItem s).scPhaseB = s.scPhaseB := rfl
@[simp] theorem finishItem_scDir : (finishItem s).scDir = s.scDir := rfl
@[simp] theorem finishItem_scSpeed : (finishItem s).scSpeed = s.scSpeed := rfl
@[simp] theorem finishItem_scStopped : (finishItem s).scStopped = s.scStopped := rfl
@[simp] theorem finishItem_scEvent : (finishItem s).scEvent = s.scEvent := rfl
@[simp] theorem finishItem_loopStart : (finishItem s).loopStart = s.loopStart := rfl
@[simp] theorem finishItem_shutdownReq : (finishItem s).shutdownReq = s.shutdownReq := rfl
@[simp] theorem finishItem_runSensor : (finishItem s).runSensor = s.runSensor := rfl
@[simp] theorem finishItem_runButton : (finishItem s).runButton = s.runButton := rfl
@[simp] theorem finishItem_runScroll : (finishItem s).runScroll = s.runScroll := rfl
@[simp] theorem finishItem_reports : (finishItem s).reports = s.reports := rfl
@[simp] theorem finishItem_events : (finishItem s).events = s.events := rfl
@[simp] theorem finishItem_sensorPos : (finishItem s).sensorPos = s.sensorPos := rfl
@[simp] theorem finishItem_buttonK : (finishItem s).buttonK = s.buttonK := rfl
@[simp] theorem finishItem_buttonSleep : (finishItem s).buttonSleep = s.buttonSleep := rfl
@[simp] theorem finishItem_scrollK : (finishItem s).scrollK = s.scrollK := rfl
@[simp] theorem finishItem_scrollSleep : (finishItem s).scrollSleep = s.scrollSleep := rfl
@[simp] theorem finishItem_oracle : (finishItem s).oracle = s.oracle := rfl
@[simp] theorem finishItem_writeOracle : (finishItem s).writeOracle = s.writeOracle := rfl
@[simp] theorem finishItem_slacks : (finishItem s).slacks = s.slacks := rfl
@[simp] theorem finishItem_interludes : (finishItem s).interludes = s.interludes := rfl
@[simp] theorem finishItem_wire : (finishItem s).wire = s.wire := rfl
@[simp] theorem finishItem_ret : (finishItem s).ret = s.ret := rfl
@[simp] theorem finishItem_agenda : (finishItem s).agenda = s.agenda.tail := rfl
@[simp] theorem finishItem_pos : (finishItem s).pos = s.pos + 1 := rfl
@[simp] theorem finishItem_ended : (finishItem s).ended = s.ended := rfl

end

end Sys2Proof.Machine
end

