-- ==== Sys2Proof/Laws/Access.lean ====
section
/-! SUPPORT. Reading one pin's or button's value after writing one. -/

namespace Sys2Proof.Machine

variable {α : Type}

@[simp] theorem perPinGet_set_same (v : PerPin α) (p : Pin) (x : α) : perPinGet (perPinSet v p x) p = x := by
  cases p <;> rfl

theorem perPinGet_set_other (v : PerPin α) {p q : Pin} (x : α) (h : q ≠ p) :
    perPinGet (perPinSet v p x) q = perPinGet v q := by
  cases p <;> cases q <;> first | rfl | exact absurd rfl h

@[simp] theorem perMainGet_set_same (v : PerMain α) (b : MainButton) (x : α) : perMainGet (perMainSet v b x) b = x := by
  cases b <;> rfl

theorem perMainGet_set_other (v : PerMain α) {b c : MainButton} (x : α) (h : c ≠ b) :
    perMainGet (perMainSet v b x) c = perMainGet v c := by
  cases b <;> cases c <;> first | rfl | exact absurd rfl h

@[simp] theorem perAuxGet_set_same (v : PerAux α) (a : AuxButton) (x : α) : perAuxGet (perAuxSet v a x) a = x := by
  cases a <;> rfl

theorem perAuxGet_set_other (v : PerAux α) {a c : AuxButton} (x : α) (h : c ≠ a) :
    perAuxGet (perAuxSet v a x) c = perAuxGet v c := by
  cases a <;> cases c <;> first | rfl | exact absurd rfl h

/-- Writing back the value a button has changes nothing. -/
theorem perAuxSet_get (v : PerAux α) (a : AuxButton) : perAuxSet v a (perAuxGet v a) = v := by
  cases a <;> rfl

end Sys2Proof.Machine
end

