-- ==== Sys2Proof/Laws/Others.lean ====
section
/-! SUPPORT. What the other agents can do at a step boundary: `OthersActed s t` lists every field that no step of the
environment, the dispatcher, the button task or the scroll task writes (10_state.md R171, R172), and what they may only add
to. -/

namespace Sys2Proof.Machine

/-- Between `s` and `t` only the environment, the dispatcher and the button and scroll tasks took steps. -/
structure OthersActed (s t : State) : Prop where
  params : t.params = s.params
  power : t.power = s.power
  ncs : t.ncs = s.ncs
  nreset : t.nreset = s.nreset
  busLast : t.busLast = s.busLast
  busLastEnd : t.busLastEnd = s.busLastEnd
  busCorrupt : t.busCorrupt = s.busCorrupt
  drvState : t.drvState = s.drvState
  degraded : t.degraded = s.degraded
  mode : t.mode = s.mode
  diag : t.diag = s.diag
  rb : t.rb = s.rb
  rbW : t.rbW = s.rbW
  rbR : t.rbR = s.rbR
  ovfCount : t.ovfCount = s.ovfCount
  seqPc : t.seqPc = s.seqPc
  loopStart : t.loopStart = s.loopStart
  runSensor : t.runSensor = s.runSensor
  sensorPos : t.sensorPos = s.sensorPos
  oracle : t.oracle = s.oracle
  writeOracle : t.writeOracle = s.writeOracle
  slacks : t.slacks = s.slacks
  wire : t.wire = s.wire
  ret : t.ret = s.ret
  agenda : t.agenda = s.agenda
  pos : t.pos = s.pos
  ended : t.ended = s.ended
  reports : ∃ l, t.reports = s.reports ++ l
  events : ∃ l, t.events = s.events ++ l

theorem othersActed_refl (s : State) : OthersActed s s := by
  constructor <;> first | rfl | exact ⟨[], (List.append_nil _).symm⟩

theorem othersActed_trans {s t u : State} (h : OthersActed s t) (k : OthersActed t u) : OthersActed s u := by
  obtain ⟨l, hl⟩ := h.reports
  obtain ⟨l', hl'⟩ := k.reports
  obtain ⟨m, hm⟩ := h.events
  obtain ⟨m', hm'⟩ := k.events
  constructor
  case reports => exact ⟨l ++ l', by rw [hl', hl, List.append_assoc]⟩
  case events => exact ⟨m ++ m', by rw [hm', hm, List.append_assoc]⟩
  all_goals first
    | exact k.params.trans h.params | exact k.power.trans h.power | exact k.ncs.trans h.ncs
    | exact k.nreset.trans h.nreset | exact k.busLast.trans h.busLast | exact k.busLastEnd.trans h.busLastEnd
    | exact k.busCorrupt.trans h.busCorrupt | exact k.drvState.trans h.drvState | exact k.degraded.trans h.degraded
    | exact k.mode.trans h.mode | exact k.diag.trans h.diag | exact k.rb.trans h.rb | exact k.rbW.trans h.rbW
    | exact k.rbR.trans h.rbR | exact k.ovfCount.trans h.ovfCount | exact k.seqPc.trans h.seqPc
    | exact k.loopStart.trans h.loopStart | exact k.runSensor.trans h.runSensor
    | exact k.sensorPos.trans h.sensorPos | exact k.oracle.trans h.oracle
    | exact k.writeOracle.trans h.writeOracle | exact k.slacks.trans h.slacks | exact k.wire.trans h.wire
    | exact k.ret.trans h.ret | exact k.agenda.trans h.agenda | exact k.pos.trans h.pos | exact k.ended.trans h.ended

/-- A state that differs only in fields the other agents write, with the same observations. -/
theorem othersActed_quiet {s t : State}
    (h : t = { s with
      now := t.now, pins := t.pins, irqPending := t.irqPending, mlState := t.mlState, mlFlag := t.mlFlag
      axState := t.axState, axEvent := t.axEvent, axConfirm := t.axConfirm, axHoldTs := t.axHoldTs
      scPhaseA := t.scPhaseA, scPhaseB := t.scPhaseB, scDir := t.scDir, scSpeed := t.scSpeed, scStopped := t.scStopped
      scEvent := t.scEvent, shutdownReq := t.shutdownReq, runButton := t.runButton, runScroll := t.runScroll
      buttonK := t.buttonK, buttonSleep := t.buttonSleep, scrollK := t.scrollK, scrollSleep := t.scrollSleep
      interludes := t.interludes }) : OthersActed s t := by
  rw [h]
  constructor <;> first | rfl | exact ⟨[], (List.append_nil _).symm⟩

theorem othersActed_emit (r : Report) (s : State) : OthersActed s (emitReport r s) := by
  constructor <;> first | rfl | exact ⟨[r], rfl⟩ | exact ⟨[], (List.append_nil _).symm⟩

theorem othersActed_raise (e : Event) (s : State) : OthersActed s (raiseEvent e s) := by
  constructor <;> first | rfl | exact ⟨[e], rfl⟩ | exact ⟨[], (List.append_nil _).symm⟩

theorem othersActed_drivePin (p : Pin) (l : Level) (s : State) : OthersActed s (drivePin p l s) := by
  simp only [drivePin]
  split <;> exact othersActed_quiet rfl

theorem othersActed_mainEdge (b : MainButton) (s : State) : OthersActed s (mainEdge b s) := by
  simp only [mainEdge]
  split
  · exact othersActed_raise _ s
  · split
    · exact othersActed_quiet rfl
    · exact othersActed_refl s

theorem othersActed_auxEdge (a : AuxButton) (s : State) : OthersActed s (auxEdge a s) := by
  simp only [auxEdge]
  split
  · exact othersActed_quiet rfl
  · split
    · exact othersActed_quiet rfl
    · exact othersActed_refl s

theorem othersActed_handler (p : Pin) (s : State) : OthersActed s (handler p s) := by
  cases p <;>
    first
    | exact othersActed_mainEdge _ s
    | exact othersActed_auxEdge _ s
    | exact othersActed_quiet rfl

theorem othersActed_handlerEntry (p : Pin) (s : State) : OthersActed s (handlerEntry p s) :=
  othersActed_trans (othersActed_quiet (t := setPending p false s) rfl) (othersActed_handler p _)

theorem othersActed_auxConfirm (a : AuxButton) (s : State) : OthersActed s (auxConfirm a s) := by
  simp only [auxConfirm]
  split
  · exact othersActed_refl s
  · split
    · exact othersActed_trans (othersActed_quiet rfl) (othersActed_raise _ { s with axConfirm := _ })
    · split <;> exact othersActed_quiet rfl

theorem othersActed_latchTake (b : MainButton) (s : State) : OthersActed s (latchTake b s).2 := by
  simp only [latchTake]
  split
  · exact othersActed_quiet rfl
  · exact othersActed_refl s

theorem othersActed_latchRelease (b : MainButton) (s : State) : OthersActed s (latchRelease b s) := by
  simp only [latchRelease]
  split
  · exact othersActed_quiet rfl
  · exact othersActed_refl s

theorem othersActed_buttonAtom (st : ButtonStep) (s : State) : OthersActed s (buttonAtom st s).1 := by
  cases st with
  | confirm a => exact othersActed_auxConfirm a s
  | latchTake b => exact othersActed_latchTake b s
  | latchReport b => exact othersActed_emit _ s
  | latchRelease b => exact othersActed_latchRelease b s
  | auxTake a => exact othersActed_quiet rfl
  | auxReport a => exact othersActed_emit _ s

theorem othersActed_scrollAtom (st : ScrollStep) (s : State) : OthersActed s (scrollAtom st s).1 := by
  cases st with
  | take => exact othersActed_quiet rfl
  | adjust ev d => exact othersActed_quiet rfl
  | report d => exact othersActed_emit _ s

theorem othersActed_buttonStep (s : State) : OthersActed s (buttonStep s) := by
  simp only [buttonStep]
  split
  · split
    · exact othersActed_trans (othersActed_buttonAtom _ s)
        (othersActed_quiet (s := (buttonAtom _ s).1) rfl)
    · split
      · exact othersActed_quiet rfl
      · split
        · exact othersActed_refl s
        · split <;> exact othersActed_quiet rfl
  · exact othersActed_refl s

theorem othersActed_scrollStep (s : State) : OthersActed s (scrollStep s) := by
  simp only [scrollStep]
  split
  · split
    · exact othersActed_trans (othersActed_scrollAtom _ s)
        (othersActed_quiet (s := (scrollAtom _ s).1) rfl)
    · split
      · exact othersActed_quiet rfl
      · split
        · exact othersActed_refl s
        · split <;> exact othersActed_quiet rfl
  · exact othersActed_refl s

theorem othersActed_actStep (who : Agent) (a : Act) (s : State) : OthersActed s (actStep who a s) := by
  cases a with
  | pin p l => exact othersActed_drivePin p l s
  | isr p =>
    simp only [actStep]
    split
    · exact othersActed_handlerEntry p s
    · exact othersActed_refl s
  | tick n h => exact othersActed_quiet rfl
  | shutdownReq => exact othersActed_quiet rfl
  | button =>
    simp only [actStep]
    split
    · exact othersActed_refl s
    · exact othersActed_buttonStep s
  | scroll =>
    simp only [actStep]
    split
    · exact othersActed_refl s
    · exact othersActed_scrollStep s

theorem othersActed_acts (who : Agent) (acts : List Act) (s : State) :
    OthersActed s (acts.foldl (fun s a => actStep who a s) s) := by
  induction acts generalizing s with
  | nil => exact othersActed_refl s
  | cons a rest ih => exact othersActed_trans (othersActed_actStep who a s) (ih _)

/-- All a step boundary can do. -/
theorem othersActed_yield (who : Agent) (s : State) : OthersActed s (yield who s) := by
  simp only [yield]
  split
  · exact othersActed_refl s
  · rename_i acts rest _
    exact othersActed_trans (othersActed_quiet (s := s) (t := { s with interludes := rest }) rfl)
      (othersActed_acts who acts _)

/-- A step boundary with no interlude is nothing. -/
@[simp] theorem yield_nil {who : Agent} {s : State} (h : s.interludes = []) : yield who s = s := by
  simp only [yield, h]

/-- A property that every step of another agent keeps is kept at a step boundary. -/
theorem yield_induction {P : State → Prop} (who : Agent)
    (hI : ∀ s l, P s → P { s with interludes := l }) (hA : ∀ a s, P s → P (actStep who a s)) {s : State} (h : P s) :
    P (yield who s) := by
  simp only [yield]
  split
  · exact h
  · rename_i acts rest _
    have key : ∀ (l : List Act) (t : State), P t → P (l.foldl (fun s a => actStep who a s) t) := by
      intro l
      induction l with
      | nil => exact fun _ ht => ht
      | cons a l ih => exact fun t ht => ih _ (hA a t ht)
    exact key acts _ (hI s rest h)

end Sys2Proof.Machine
end

