-- ==== Sys2Proof/Laws/Waits.lean ====
section
/-! SUPPORT. What a step boundary, a wait and the parts of a transaction leave alone, field by field, whatever the other agents
do meanwhile; and what they do under the runner's schedule, where no other agent acts and every wait takes its minimum. -/

namespace Sys2Proof.Machine

/-! ### `yield` -/

section
variable (who : Agent) (s : State)

@[simp] theorem yield_params : (yield who s).params = s.params := (othersActed_yield who s).params
@[simp] theorem yield_power : (yield who s).power = s.power := (othersActed_yield who s).power
@[simp] theorem yield_ncs : (yield who s).ncs = s.ncs := (othersActed_yield who s).ncs
@[simp] theorem yield_nreset : (yield who s).nreset = s.nreset := (othersActed_yield who s).nreset
@[simp] theorem yield_busLast : (yield who s).busLast = s.busLast := (othersActed_yield who s).busLast
@[simp] theorem yield_busLastEnd : (yield who s).busLastEnd = s.busLastEnd := (othersActed_yield who s).busLastEnd
@[simp] theorem yield_busCorrupt : (yield who s).busCorrupt = s.busCorrupt := (othersActed_yield who s).busCorrupt
@[simp] theorem yield_drvState : (yield who s).drvState = s.drvState := (othersActed_yield who s).drvState
@[simp] theorem yield_degraded : (yield who s).degraded = s.degraded := (othersActed_yield who s).degraded
@[simp] theorem yield_mode : (yield who s).mode = s.mode := (othersActed_yield who s).mode
@[simp] theorem yield_diag : (yield who s).diag = s.diag := (othersActed_yield who s).diag
@[simp] theorem yield_rb : (yield who s).rb = s.rb := (othersActed_yield who s).rb
@[simp] theorem yield_rbW : (yield who s).rbW = s.rbW := (othersActed_yield who s).rbW
@[simp] theorem yield_rbR : (yield who s).rbR = s.rbR := (othersActed_yield who s).rbR
@[simp] theorem yield_ovfCount : (yield who s).ovfCount = s.ovfCount := (othersActed_yield who s).ovfCount
@[simp] theorem yield_seqPc : (yield who s).seqPc = s.seqPc := (othersActed_yield who s).seqPc
@[simp] theorem yield_loopStart : (yield who s).loopStart = s.loopStart := (othersActed_yield who s).loopStart
@[simp] theorem yield_runSensor : (yield who s).runSensor = s.runSensor := (othersActed_yield who s).runSensor
@[simp] theorem yield_sensorPos : (yield who s).sensorPos = s.sensorPos := (othersActed_yield who s).sensorPos
@[simp] theorem yield_oracle : (yield who s).oracle = s.oracle := (othersActed_yield who s).oracle
@[simp] theorem yield_writeOracle : (yield who s).writeOracle = s.writeOracle := (othersActed_yield who s).writeOracle
@[simp] theorem yield_slacks : (yield who s).slacks = s.slacks := (othersActed_yield who s).slacks
@[simp] theorem yield_wire : (yield who s).wire = s.wire := (othersActed_yield who s).wire
@[simp] theorem yield_ret : (yield who s).ret = s.ret := (othersActed_yield who s).ret
@[simp] theorem yield_agenda : (yield who s).agenda = s.agenda := (othersActed_yield who s).agenda
@[simp] theorem yield_pos : (yield who s).pos = s.pos := (othersActed_yield who s).pos
@[simp] theorem yield_ended : (yield who s).ended = s.ended := (othersActed_yield who s).ended

end

/-! ### `waitFrom` -/

section
variable (who : Agent) (t0 : Time) (T : Nat) (s : State)

@[simp] theorem waitFrom_params : (waitFrom who t0 T s).params = s.params := by simp [waitFrom]
@[simp] theorem waitFrom_power : (waitFrom who t0 T s).power = s.power := by simp [waitFrom]
@[simp] theorem waitFrom_ncs : (waitFrom who t0 T s).ncs = s.ncs := by simp [waitFrom]
@[simp] theorem waitFrom_nreset : (waitFrom who t0 T s).nreset = s.nreset := by simp [waitFrom]
@[simp] theorem waitFrom_busLast : (waitFrom who t0 T s).busLast = s.busLast := by simp [waitFrom]
@[simp] theorem waitFrom_busLastEnd : (waitFrom who t0 T s).busLastEnd = s.busLastEnd := by simp [waitFrom]
@[simp] theorem waitFrom_busCorrupt : (waitFrom who t0 T s).busCorrupt = s.busCorrupt := by simp [waitFrom]
@[simp] theorem waitFrom_drvState : (waitFrom who t0 T s).drvState = s.drvState := by simp [waitFrom]
@[simp] theorem waitFrom_degraded : (waitFrom who t0 T s).degraded = s.degraded := by simp [waitFrom]
@[simp] theorem waitFrom_mode : (waitFrom who t0 T s).mode = s.mode := by simp [waitFrom]
@[simp] theorem waitFrom_diag : (waitFrom who t0 T s).diag = s.diag := by simp [waitFrom]
@[simp] theorem waitFrom_rb : (waitFrom who t0 T s).rb = s.rb := by simp [waitFrom]
@[simp] theorem waitFrom_rbW : (waitFrom who t0 T s).rbW = s.rbW := by simp [waitFrom]
@[simp] theorem waitFrom_rbR : (waitFrom who t0 T s).rbR = s.rbR := by simp [waitFrom]
@[simp] theorem waitFrom_ovfCount : (waitFrom who t0 T s).ovfCount = s.ovfCount := by simp [waitFrom]
@[simp] theorem waitFrom_seqPc : (waitFrom who t0 T s).seqPc = s.seqPc := by simp [waitFrom]
@[simp] theorem waitFrom_loopStart : (waitFrom who t0 T s).loopStart = s.loopStart := by simp [waitFrom]
@[simp] theorem waitFrom_runSensor : (waitFrom who t0 T s).runSensor = s.runSensor := by simp [waitFrom]
@[simp] theorem waitFrom_sensorPos : (waitFrom who t0 T s).sensorPos = s.sensorPos := by simp [waitFrom]
@[simp] theorem waitFrom_oracle : (waitFrom who t0 T s).oracle = s.oracle := by simp [waitFrom]
@[simp] theorem waitFrom_writeOracle : (waitFrom who t0 T s).writeOracle = s.writeOracle := by simp [waitFrom]
@[simp] theorem waitFrom_slacks : (waitFrom who t0 T s).slacks = s.slacks.tail := by simp [waitFrom]
@[simp] theorem waitFrom_wire : (waitFrom who t0 T s).wire = s.wire := by simp [waitFrom]
@[simp] theorem waitFrom_ret : (waitFrom who t0 T s).ret = s.ret := by simp [waitFrom]
@[simp] theorem waitFrom_agenda : (waitFrom who t0 T s).agenda = s.agenda := by simp [waitFrom]
@[simp] theorem waitFrom_pos : (waitFrom who t0 T s).pos = s.pos := by simp [waitFrom]
@[simp] theorem waitFrom_ended : (waitFrom who t0 T s).ended = s.ended := by simp [waitFrom]

end

/-! ### `wait` -/

section
variable (who : Agent) (T : Nat) (s : State)

@[simp] theorem wait_params : (wait who T s).params = s.params := by simp [wait]
@[simp] theorem wait_power : (wait who T s).power = s.power := by simp [wait]
@[simp] theorem wait_ncs : (wait who T s).ncs = s.ncs := by simp [wait]
@[simp] theorem wait_nreset : (wait who T s).nreset = s.nreset := by simp [wait]
@[simp] theorem wait_busLast : (wait who T s).busLast = s.busLast := by simp [wait]
@[simp] theorem wait_busLastEnd : (wait who T s).busLastEnd = s.busLastEnd := by simp [wait]
@[simp] theorem wait_busCorrupt : (wait who T s).busCorrupt = s.busCorrupt := by simp [wait]
@[simp] theorem wait_drvState : (wait who T s).drvState = s.drvState := by simp [wait]
@[simp] theorem wait_degraded : (wait who T s).degraded = s.degraded := by simp [wait]
@[simp] theorem wait_mode : (wait who T s).mode = s.mode := by simp [wait]
@[simp] theorem wait_diag : (wait who T s).diag = s.diag := by simp [wait]
@[simp] theorem wait_rb : (wait who T s).rb = s.rb := by simp [wait]
@[simp] theorem wait_rbW : (wait who T s).rbW = s.rbW := by simp [wait]
@[simp] theorem wait_rbR : (wait who T s).rbR = s.rbR := by simp [wait]
@[simp] theorem wait_ovfCount : (wait who T s).ovfCount = s.ovfCount := by simp [wait]
@[simp] theorem wait_seqPc : (wait who T s).seqPc = s.seqPc := by simp [wait]
@[simp] theorem wait_loopStart : (wait who T s).loopStart = s.loopStart := by simp [wait]
@[simp] theorem wait_runSensor : (wait who T s).runSensor = s.runSensor := by simp [wait]
@[simp] theorem wait_sensorPos : (wait who T s).sensorPos = s.sensorPos := by simp [wait]
@[simp] theorem wait_oracle : (wait who T s).oracle = s.oracle := by simp [wait]
@[simp] theorem wait_writeOracle : (wait who T s).writeOracle = s.writeOracle := by simp [wait]
@[simp] theorem wait_slacks : (wait who T s).slacks = s.slacks.tail := by simp [wait]
@[simp] theorem wait_wire : (wait who T s).wire = s.wire := by simp [wait]
@[simp] theorem wait_ret : (wait who T s).ret = s.ret := by simp [wait]
@[simp] theorem wait_agenda : (wait who T s).agenda = s.agenda := by simp [wait]
@[simp] theorem wait_pos : (wait who T s).pos = s.pos := by simp [wait]
@[simp] theorem wait_ended : (wait who T s).ended = s.ended := by simp [wait]

end

/-! ### `busWaitFrom` -/

section
variable (t0 : Time) (T : Nat) (s : State)

@[simp] theorem busWaitFrom_params : (busWaitFrom t0 T s).params = s.params := by simp only [busWaitFrom]; split <;> simp
@[simp] theorem busWaitFrom_power : (busWaitFrom t0 T s).power = s.power := by simp only [busWaitFrom]; split <;> simp
@[simp] theorem busWaitFrom_ncs : (busWaitFrom t0 T s).ncs = s.ncs := by simp only [busWaitFrom]; split <;> simp
@[simp] theorem busWaitFrom_nreset : (busWaitFrom t0 T s).nreset = s.nreset := by simp only [busWaitFrom]; split <;> simp
@[simp] theorem busWaitFrom_busLast : (busWaitFrom t0 T s).busLast = s.busLast := by simp only [busWaitFrom]; split <;> simp
@[simp] theorem busWaitFrom_busLastEnd : (busWaitFrom t0 T s).busLastEnd = s.busLastEnd := by simp only [busWaitFrom]; split <;> simp
@[simp] theorem busWaitFrom_drvState : (busWaitFrom t0 T s).drvState = s.drvState := by simp only [busWaitFrom]; split <;> simp
@[simp] theorem busWaitFrom_degraded : (busWaitFrom t0 T s).degraded = s.degraded := by simp only [busWaitFrom]; split <;> simp
@[simp] theorem busWaitFrom_mode : (busWaitFrom t0 T s).mode = s.mode := by simp only [busWaitFrom]; split <;> simp
@[simp] theorem busWaitFrom_diag : (busWaitFrom t0 T s).diag = s.diag := by simp only [busWaitFrom]; split <;> simp
@[simp] theorem busWaitFrom_rb : (busWaitFrom t0 T s).rb = s.rb := by simp only [busWaitFrom]; split <;> simp
@[simp] theorem busWaitFrom_rbW : (busWaitFrom t0 T s).rbW = s.rbW := by simp only [busWaitFrom]; split <;> simp
@[simp] theorem busWaitFrom_rbR : (busWaitFrom t0 T s).rbR = s.rbR := by simp only [busWaitFrom]; split <;> simp
@[simp] theorem busWaitFrom_ovfCount : (busWaitFrom t0 T s).ovfCount = s.ovfCount := by simp only [busWaitFrom]; split <;> simp
@[simp] theorem busWaitFrom_seqPc : (busWaitFrom t0 T s).seqPc = s.seqPc := by simp only [busWaitFrom]; split <;> simp
@[simp] theorem busWaitFrom_loopStart : (busWaitFrom t0 T s).loopStart = s.loopStart := by simp only [busWaitFrom]; split <;> simp
@[simp] theorem busWaitFrom_runSensor : (busWaitFrom t0 T s).runSensor = s.runSensor := by simp only [busWaitFrom]; split <;> simp
@[simp] theorem busWaitFrom_sensorPos : (busWaitFrom t0 T s).sensorPos = s.sensorPos := by simp only [busWaitFrom]; split <;> simp
@[simp] theorem busWaitFrom_oracle : (busWaitFrom t0 T s).oracle = s.oracle := by simp only [busWaitFrom]; split <;> simp
@[simp] theorem busWaitFrom_writeOracle : (busWaitFrom t0 T s).writeOracle = s.writeOracle := by simp only [busWaitFrom]; split <;> simp
@[simp] theorem busWaitFrom_slacks : (busWaitFrom t0 T s).slacks = s.slacks.tail := by simp only [busWaitFrom]; split <;> simp
@[simp] theorem busWaitFrom_wire : (busWaitFrom t0 T s).wire = s.wire := by simp only [busWaitFrom]; split <;> simp
@[simp] theorem busWaitFrom_ret : (busWaitFrom t0 T s).ret = s.ret := by simp only [busWaitFrom]; split <;> simp
@[simp] theorem busWaitFrom_agenda : (busWaitFrom t0 T s).agenda = s.agenda := by simp only [busWaitFrom]; split <;> simp
@[simp] theorem busWaitFrom_pos : (busWaitFrom t0 T s).pos = s.pos := by simp only [busWaitFrom]; split <;> simp
@[simp] theorem busWaitFrom_ended : (busWaitFrom t0 T s).ended = s.ended := by simp only [busWaitFrom]; split <;> simp

end

/-! ### `busWait` -/

section
variable (T : Nat) (s : State)

@[simp] theorem busWait_params : (busWait T s).params = s.params := by simp [busWait]
@[simp] theorem busWait_power : (busWait T s).power = s.power := by simp [busWait]
@[simp] theorem busWait_ncs : (busWait T s).ncs = s.ncs := by simp [busWait]
@[simp] theorem busWait_nreset : (busWait T s).nreset = s.nreset := by simp [busWait]
@[simp] theorem busWait_busLast : (busWait T s).busLast = s.busLast := by simp [busWait]
@[simp] theorem busWait_busLastEnd : (busWait T s).busLastEnd = s.busLastEnd := by simp [busWait]
@[simp] theorem busWait_drvState : (busWait T s).drvState = s.drvState := by simp [busWait]
@[simp] theorem busWait_degraded : (busWait T s).degraded = s.degraded := by simp [busWait]
@[simp] theorem busWait_mode : (busWait T s).mode = s.mode := by simp [busWait]
@[simp] theorem busWait_diag : (busWait T s).diag = s.diag := by simp [busWait]
@[simp] theorem busWait_rb : (busWait T s).rb = s.rb := by simp [busWait]
@[simp] theorem busWait_rbW : (busWait T s).rbW = s.rbW := by simp [busWait]
@[simp] theorem busWait_rbR : (busWait T s).rbR = s.rbR := by simp [busWait]
@[simp] theorem busWait_ovfCount : (busWait T s).ovfCount = s.ovfCount := by simp [busWait]
@[simp] theorem busWait_seqPc : (busWait T s).seqPc = s.seqPc := by simp [busWait]
@[simp] theorem busWait_loopStart : (busWait T s).loopStart = s.loopStart := by simp [busWait]
@[simp] theorem busWait_runSensor : (busWait T s).runSensor = s.runSensor := by simp [busWait]
@[simp] theorem busWait_sensorPos : (busWait T s).sensorPos = s.sensorPos := by simp [busWait]
@[simp] theorem busWait_oracle : (busWait T s).oracle = s.oracle := by simp [busWait]
@[simp] theorem busWait_writeOracle : (busWait T s).writeOracle = s.writeOracle := by simp [busWait]
@[simp] theorem busWait_slacks : (busWait T s).slacks = s.slacks.tail := by simp [busWait]
@[simp] theorem busWait_wire : (busWait T s).wire = s.wire := by simp [busWait]
@[simp] theorem busWait_ret : (busWait T s).ret = s.ret := by simp [busWait]
@[simp] theorem busWait_agenda : (busWait T s).agenda = s.agenda := by simp [busWait]
@[simp] theorem busWait_pos : (busWait T s).pos = s.pos := by simp [busWait]
@[simp] theorem busWait_ended : (busWait T s).ended = s.ended := by simp [busWait]

end

/-! ### `gapWait` -/

section
variable (s : State)

@[simp] theorem gapWait_params : (gapWait s).params = s.params := by simp [gapWait]
@[simp] theorem gapWait_power : (gapWait s).power = s.power := by simp [gapWait]
@[simp] theorem gapWait_ncs : (gapWait s).ncs = s.ncs := by simp [gapWait]
@[simp] theorem gapWait_nreset : (gapWait s).nreset = s.nreset := by simp [gapWait]
@[simp] theorem gapWait_busLast : (gapWait s).busLast = s.busLast := by simp [gapWait]
@[simp] theorem gapWait_busLastEnd : (gapWait s).busLastEnd = s.busLastEnd := by simp [gapWait]
@[simp] theorem gapWait_drvState : (gapWait s).drvState = s.drvState := by simp [gapWait]
@[simp] theorem gapWait_degraded : (gapWait s).degraded = s.degraded := by simp [gapWait]
@[simp] theorem gapWait_mode : (gapWait s).mode = s.mode := by simp [gapWait]
@[simp] theorem gapWait_diag : (gapWait s).diag = s.diag := by simp [gapWait]
@[simp] theorem gapWait_rb : (gapWait s).rb = s.rb := by simp [gapWait]
@[simp] theorem gapWait_rbW : (gapWait s).rbW = s.rbW := by simp [gapWait]
@[simp] theorem gapWait_rbR : (gapWait s).rbR = s.rbR := by simp [gapWait]
@[simp] theorem gapWait_ovfCount : (gapWait s).ovfCount = s.ovfCount := by simp [gapWait]
@[simp] theorem gapWait_seqPc : (gapWait s).seqPc = s.seqPc := by simp [gapWait]
@[simp] theorem gapWait_loopStart : (gapWait s).loopStart = s.loopStart := by simp [gapWait]
@[simp] theorem gapWait_runSensor : (gapWait s).runSensor = s.runSensor := by simp [gapWait]
@[simp] theorem gapWait_sensorPos : (gapWait s).sensorPos = s.sensorPos := by simp [gapWait]
@[simp] theorem gapWait_oracle : (gapWait s).oracle = s.oracle := by simp [gapWait]
@[simp] theorem gapWait_writeOracle : (gapWait s).writeOracle = s.writeOracle := by simp [gapWait]
@[simp] theorem gapWait_slacks : (gapWait s).slacks = s.slacks.tail := by simp [gapWait]
@[simp] theorem gapWait_wire : (gapWait s).wire = s.wire := by simp [gapWait]
@[simp] theorem gapWait_ret : (gapWait s).ret = s.ret := by simp [gapWait]
@[simp] theorem gapWait_agenda : (gapWait s).agenda = s.agenda := by simp [gapWait]
@[simp] theorem gapWait_pos : (gapWait s).pos = s.pos := by simp [gapWait]
@[simp] theorem gapWait_ended : (gapWait s).ended = s.ended := by simp [gapWait]

end

/-! ### `busAssert` -/

section
variable (s : State)

@[simp] theorem busAssert_params : (busAssert s).params = s.params := by simp [busAssert]
@[simp] theorem busAssert_power : (busAssert s).power = s.power := by simp [busAssert]
@[simp] theorem busAssert_ncs : (busAssert s).ncs = false := by simp [busAssert]
@[simp] theorem busAssert_nreset : (busAssert s).nreset = s.nreset := by simp [busAssert]
@[simp] theorem busAssert_busLast : (busAssert s).busLast = s.busLast := by simp [busAssert]
@[simp] theorem busAssert_busLastEnd : (busAssert s).busLastEnd = s.busLastEnd := by simp [busAssert]
@[simp] theorem busAssert_drvState : (busAssert s).drvState = s.drvState := by simp [busAssert]
@[simp] theorem busAssert_degraded : (busAssert s).degraded = s.degraded := by simp [busAssert]
@[simp] theorem busAssert_mode : (busAssert s).mode = s.mode := by simp [busAssert]
@[simp] theorem busAssert_diag : (busAssert s).diag = s.diag := by simp [busAssert]
@[simp] theorem busAssert_rb : (busAssert s).rb = s.rb := by simp [busAssert]
@[simp] theorem busAssert_rbW : (busAssert s).rbW = s.rbW := by simp [busAssert]
@[simp] theorem busAssert_rbR : (busAssert s).rbR = s.rbR := by simp [busAssert]
@[simp] theorem busAssert_ovfCount : (busAssert s).ovfCount = s.ovfCount := by simp [busAssert]
@[simp] theorem busAssert_seqPc : (busAssert s).seqPc = s.seqPc := by simp [busAssert]
@[simp] theorem busAssert_loopStart : (busAssert s).loopStart = s.loopStart := by simp [busAssert]
@[simp] theorem busAssert_runSensor : (busAssert s).runSensor = s.runSensor := by simp [busAssert]
@[simp] theorem busAssert_sensorPos : (busAssert s).sensorPos = s.sensorPos := by simp [busAssert]
@[simp] theorem busAssert_oracle : (busAssert s).oracle = s.oracle := by simp [busAssert]
@[simp] theorem busAssert_writeOracle : (busAssert s).writeOracle = s.writeOracle := by simp [busAssert]
@[simp] theorem busAssert_slacks : (busAssert s).slacks = s.slacks.tail := by simp [busAssert]
@[simp] theorem busAssert_wire : (busAssert s).wire = s.wire ++ [.ncs false (gapWait s).now] := by simp [busAssert]
@[simp] theorem busAssert_ret : (busAssert s).ret = s.ret := by simp [busAssert]
@[simp] theorem busAssert_agenda : (busAssert s).agenda = s.agenda := by simp [busAssert]
@[simp] theorem busAssert_pos : (busAssert s).pos = s.pos := by simp [busAssert]
@[simp] theorem busAssert_ended : (busAssert s).ended = s.ended := by simp [busAssert]

end

/-! ### `busSend` -/

section
variable (b : List Byte) (s : State)

@[simp] theorem busSend_params : (busSend b s).params = s.params := by simp [busSend]
@[simp] theorem busSend_power : (busSend b s).power = s.power := by simp [busSend]
@[simp] theorem busSend_ncs : (busSend b s).ncs = s.ncs := by simp [busSend]
@[simp] theorem busSend_nreset : (busSend b s).nreset = s.nreset := by simp [busSend]
@[simp] theorem busSend_busLast : (busSend b s).busLast = s.busLast := by simp [busSend]
@[simp] theorem busSend_busLastEnd : (busSend b s).busLastEnd = s.busLastEnd := by simp [busSend]
@[simp] theorem busSend_drvState : (busSend b s).drvState = s.drvState := by simp [busSend]
@[simp] theorem busSend_degraded : (busSend b s).degraded = s.degraded := by simp [busSend]
@[simp] theorem busSend_mode : (busSend b s).mode = s.mode := by simp [busSend]
@[simp] theorem busSend_diag : (busSend b s).diag = s.diag := by simp [busSend]
@[simp] theorem busSend_rb : (busSend b s).rb = s.rb := by simp [busSend]
@[simp] theorem busSend_rbW : (busSend b s).rbW = s.rbW := by simp [busSend]
@[simp] theorem busSend_rbR : (busSend b s).rbR = s.rbR := by simp [busSend]
@[simp] theorem busSend_ovfCount : (busSend b s).ovfCount = s.ovfCount := by simp [busSend]
@[simp] theorem busSend_seqPc : (busSend b s).seqPc = s.seqPc := by simp [busSend]
@[simp] theorem busSend_loopStart : (busSend b s).loopStart = s.loopStart := by simp [busSend]
@[simp] theorem busSend_runSensor : (busSend b s).runSensor = s.runSensor := by simp [busSend]
@[simp] theorem busSend_sensorPos : (busSend b s).sensorPos = s.sensorPos := by simp [busSend]
@[simp] theorem busSend_oracle : (busSend b s).oracle = s.oracle := by simp [busSend]
@[simp] theorem busSend_writeOracle : (busSend b s).writeOracle = s.writeOracle := by simp [busSend]
@[simp] theorem busSend_slacks : (busSend b s).slacks = s.slacks.tail := by simp [busSend]
@[simp] theorem busSend_wire : (busSend b s).wire = s.wire ++ b.map .sent := by simp [busSend]
@[simp] theorem busSend_ret : (busSend b s).ret = s.ret := by simp [busSend]
@[simp] theorem busSend_agenda : (busSend b s).agenda = s.agenda := by simp [busSend]
@[simp] theorem busSend_pos : (busSend b s).pos = s.pos := by simp [busSend]
@[simp] theorem busSend_ended : (busSend b s).ended = s.ended := by simp [busSend]

end

/-! ### `busRelease` -/

section
variable (k : BusKind) (s : State)

@[simp] theorem busRelease_params : (busRelease k s).params = s.params := by simp [busRelease]
@[simp] theorem busRelease_power : (busRelease k s).power = s.power := by simp [busRelease]
@[simp] theorem busRelease_ncs : (busRelease k s).ncs = true := by simp [busRelease]
@[simp] theorem busRelease_nreset : (busRelease k s).nreset = s.nreset := by simp [busRelease]
@[simp] theorem busRelease_busLast : (busRelease k s).busLast = k := by simp [busRelease]
@[simp] theorem busRelease_busLastEnd : (busRelease k s).busLastEnd = (yield .sensor s).now := by simp [busRelease]
@[simp] theorem busRelease_busCorrupt : (busRelease k s).busCorrupt = s.busCorrupt := by simp [busRelease]
@[simp] theorem busRelease_drvState : (busRelease k s).drvState = s.drvState := by simp [busRelease]
@[simp] theorem busRelease_degraded : (busRelease k s).degraded = s.degraded := by simp [busRelease]
@[simp] theorem busRelease_mode : (busRelease k s).mode = s.mode := by simp [busRelease]
@[simp] theorem busRelease_diag : (busRelease k s).diag = s.diag := by simp [busRelease]
@[simp] theorem busRelease_rb : (busRelease k s).rb = s.rb := by simp [busRelease]
@[simp] theorem busRelease_rbW : (busRelease k s).rbW = s.rbW := by simp [busRelease]
@[simp] theorem busRelease_rbR : (busRelease k s).rbR = s.rbR := by simp [busRelease]
@[simp] theorem busRelease_ovfCount : (busRelease k s).ovfCount = s.ovfCount := by simp [busRelease]
@[simp] theorem busRelease_seqPc : (busRelease k s).seqPc = s.seqPc := by simp [busRelease]
@[simp] theorem busRelease_loopStart : (busRelease k s).loopStart = s.loopStart := by simp [busRelease]
@[simp] theorem busRelease_runSensor : (busRelease k s).runSensor = s.runSensor := by simp [busRelease]
@[simp] theorem busRelease_sensorPos : (busRelease k s).sensorPos = s.sensorPos := by simp [busRelease]
@[simp] theorem busRelease_oracle : (busRelease k s).oracle = s.oracle := by simp [busRelease]
@[simp] theorem busRelease_writeOracle : (busRelease k s).writeOracle = s.writeOracle := by simp [busRelease]
@[simp] theorem busRelease_slacks : (busRelease k s).slacks = s.slacks := by simp [busRelease]
@[simp] theorem busRelease_wire : (busRelease k s).wire = s.wire ++ [.ncs true (yield .sensor s).now] := by simp [busRelease]
@[simp] theorem busRelease_ret : (busRelease k s).ret = s.ret := by simp [busRelease]
@[simp] theorem busRelease_agenda : (busRelease k s).agenda = s.agenda := by simp [busRelease]
@[simp] theorem busRelease_pos : (busRelease k s).pos = s.pos := by simp [busRelease]
@[simp] theorem busRelease_ended : (busRelease k s).ended = s.ended := by simp [busRelease]

end

/-! ### The runner's schedule -/

section
variable {s : State}

@[simp] theorem dropSlack_nil (h : s.slacks = []) : dropSlack s = s := by
  obtain ⟨⟩ := s
  cases h
  rfl

@[simp] theorem nextSlack_nil (h : s.slacks = []) : nextSlack s = 0 := by simp [nextSlack, h]

/-- A wait takes what is left of its minimum. -/
theorem waitFrom_runner (hi : s.interludes = []) (hs : s.slacks = []) (who : Agent) (t0 : Time) (T : Nat) :
    waitFrom who t0 T s = advance (T - elapsedSince s.now t0) s := by
  simp [waitFrom, hi, hs]

theorem elapsedSince_self (t : Time) : elapsedSince t t = 0 := by simp [elapsedSince]

theorem wait_runner (hi : s.interludes = []) (hs : s.slacks = []) (who : Agent) (T : Nat) :
    wait who T s = advance T s := by
  simp [wait, waitFrom_runner hi hs, elapsedSince_self]

/-- A bus wait at its minimum corrupts nothing. -/
theorem busWaitFrom_runner (hi : s.interludes = []) (hs : s.slacks = []) (t0 : Time) (T : Nat) :
    busWaitFrom t0 T s = advance (T - elapsedSince s.now t0) s := by
  have h : ¬ max T (elapsedSince s.now t0) < T := by omega
  simp [busWaitFrom, hi, hs, h]

theorem busWait_runner (hi : s.interludes = []) (hs : s.slacks = []) (T : Nat) : busWait T s = advance T s := by
  simp [busWait, busWaitFrom_runner hi hs, elapsedSince_self]

theorem gapWait_runner (hi : s.interludes = []) (hs : s.slacks = []) : gapWait s = advance (Safety.gapLeft s) s := by
  simp [gapWait, Safety.gapLeft, busWaitFrom_runner hi hs]

end

end Sys2Proof.Machine
end

