-- ==== Sys2Proof/Laws/Bus.lean ====
section
/-! SUPPORT. What one transaction does when every wait takes its minimum and no other agent acts, and what the sequences of
transactions of Safety.lean leave alone. -/

namespace Sys2Proof.Machine

open Sys2Proof.Safety

section
variable {s : State}

/-- A write under an exact schedule (40_register_bus.md R410). -/
theorem busWrite_exact (h : ExactSchedule s) (a : Addr) (v : Byte) :
    busWrite a v s = (s.writeOracle.headD (.ok ()),
      { transacted .write [commandByte true a, v] 0 [] s with writeOracle := s.writeOracle.tail }) := by
  obtain ⟨hi, hs⟩ := h
  have h1 : gapWait s = advance (gapLeft s) s := gapWait_runner hi hs
  simp [busWrite, busRelease, endTransaction, busSend, busAssert, h1, busWait_runner, askWrite, setNcs, logWire, sendBytes, advance, hi, hs,
    transacted, assertTime, releaseTime, Config.dirWrite]

/-- A read under an exact schedule that the sensor answers (R415). -/
theorem busRead_exact (h : ExactSchedule s) {a : Addr} (ha : a ≠ s.params.burstAddr) {b : Byte} {rest : List ReadAnswer}
    (ho : s.oracle = .byte b :: rest) :
    busRead a s = .ok (.ok b, { readAnswered a b s with oracle := rest }) := by
  obtain ⟨hi, hs⟩ := h
  have h1 : gapWait s = advance (gapLeft s) s := gapWait_runner hi hs
  simp [busRead, ha, askByte, ho, dropOracle, busRelease, endTransaction, busSend, busAssert, h1, busWait_runner, setNcs, logWire, sendBytes,
    advance, hi, hs, readAnswered, transacted, assertTime, releaseTime, Config.dirWrite]

/-- A read under an exact schedule that faults (R415, R427). -/
theorem busRead_exact_fault (h : ExactSchedule s) {a : Addr} (ha : a ≠ s.params.burstAddr) {rest : List ReadAnswer}
    (ho : s.oracle = .fault :: rest) :
    busRead a s = .ok (.fault, { readFaulted a s with oracle := rest }) := by
  obtain ⟨hi, hs⟩ := h
  have h1 : gapWait s = advance (gapLeft s) s := gapWait_runner hi hs
  simp [busRead, ha, askByte, ho, dropOracle, busRelease, endTransaction, busSend, busAssert, h1, busWait_runner, setNcs, logWire, sendBytes,
    advance, hi, hs, readFaulted, transacted, assertTime, releaseTime, Config.dirWrite]

/-- A burst under an exact schedule that the sensor answers (R420). -/
theorem busBurst_exact (h : ExactSchedule s) {bytes : List Byte} {rest : List ReadAnswer} (hl : bytes.length = 12)
    (ho : s.oracle = .burst bytes :: rest) :
    busBurst s = .ok (.ok bytes, assertTime s, { burstAnswered bytes s with oracle := rest }) := by
  obtain ⟨hi, hs⟩ := h
  have h1 : gapWait s = advance (gapLeft s) s := gapWait_runner hi hs
  simp [busBurst, askBurst, hl, Config.burstLen, ho, dropOracle, busRelease, endTransaction, busSend, busAssert, h1, busWait_runner, setNcs,
    logWire, sendBytes, advance, hi, hs, burstAnswered, transacted, assertTime, releaseTime, Config.dirWrite]

/-- A burst under an exact schedule that faults (R420, R427). -/
theorem busBurst_exact_fault (h : ExactSchedule s) {rest : List ReadAnswer} (ho : s.oracle = .fault :: rest) :
    busBurst s = .ok (.fault, assertTime s, { burstFaulted s with oracle := rest }) := by
  obtain ⟨hi, hs⟩ := h
  have h1 : gapWait s = advance (gapLeft s) s := gapWait_runner hi hs
  simp [busBurst, askBurst, ho, dropOracle, busRelease, endTransaction, busSend, busAssert, h1, busWait_runner, setNcs,
    logWire, sendBytes, advance, hi, hs, burstFaulted, transacted, assertTime, releaseTime, Config.dirWrite]

end

end Sys2Proof.Machine
end

