-- ==== Sys2Proof/Laws/Sequencer.lean ====
section
/-! SUPPORT. What the sequencer's replays, polls and diagnostic reads do under an exact schedule, in the vocabulary of
Safety.lean (41_sensor_driver.md R456 to R458). -/

namespace Sys2Proof.Machine

open Sys2Proof.Safety

/-! ### The bytes of a script word -/

/-- A script word with bit 15 = 1 is sent as the command byte of a write to its address, then its value. -/
theorem wordBytes_entry (w : BitVec 16) (h : isScriptEntry w = true) :
    wordBytes w = [commandByte true (w.extractLsb' 8 7), w.extractLsb' 0 8] := by
  have h15 : w.getLsbD 15 = true := h
  have e : w.extractLsb' 8 8 = 1#1 ++ w.extractLsb' 8 7 := by
    apply BitVec.eq_of_getLsbD_eq
    intro i hi
    rw [BitVec.getLsbD_append, BitVec.getLsbD_extractLsb', BitVec.getLsbD_extractLsb']
    by_cases h7 : i < 7
    · simp [h7, show i < 8 by omega]
    · have hi7 : i = 7 := by omega
      subst hi7
      rw [h15]
      rfl
  simp only [wordBytes, commandByte, e]
  rfl

/-! ### Transactions leave the schedule and the sequencer alone -/

theorem transacted_exact {s : State} (h : ExactSchedule s) (k : BusKind) (b : List Byte) (d : Nat) (r : List WireEvent) :
    ExactSchedule (transacted k b d r s) := h

/-- One write moved past a sequencer position. -/
theorem transacted_seqPc (k : BusKind) (b : List Byte) (d : Nat) (r : List WireEvent) (s : State) (pc : SeqPc) :
    transacted k b d r { s with seqPc := pc } = { transacted k b d r s with seqPc := pc } := rfl

theorem replayed_cons (w : BitVec 16) (ws : List (BitVec 16)) (s : State) :
    replayed (w :: ws) s = replayed ws (transacted .write (wordBytes w) 0 [] s) := rfl

/-- A replay touches the time, chip-select, the bus timing state and the trace only. -/
theorem replayed_frame (ws : List (BitVec 16)) (s : State) :
    replayed ws s = { s with
      now := (replayed ws s).now, ncs := (replayed ws s).ncs, busLast := (replayed ws s).busLast
      busLastEnd := (replayed ws s).busLastEnd, wire := (replayed ws s).wire } := by
  induction ws generalizing s with
  | nil => rfl
  | cons w ws ih =>
    rw [replayed_cons, ih]
    rfl

/-- A replay moved past a sequencer position and a queue of write answers. -/
theorem replayed_update (ws : List (BitVec 16)) (s : State) (pc : SeqPc) (q : List (Answer Unit)) :
    replayed ws { s with seqPc := pc, writeOracle := q } = { replayed ws s with seqPc := pc, writeOracle := q } := by
  induction ws generalizing s with
  | nil => rfl
  | cons w ws ih =>
    rw [replayed_cons, replayed_cons, ← ih]
    rfl

/-- One script word under an exact schedule: its write, then the next entry or the fatal fault (R457). -/
theorem replayWords_cons_exact {s : State} (h : ExactSchedule s) (w : BitVec 16) (ws : List (BitVec 16))
    (hw : isScriptEntry w = true) :
    replayWords (w :: ws) s =
      (let u : State := { transacted .write (wordBytes w) 0 [] s with writeOracle := s.writeOracle.tail }
       if s.writeOracle.headD (.ok ()) = .ok () then replayWords ws (nextEntry u) else .ok (false, fatalFault u)) := by
  have hd : decodeScript w = .ok (.script (w.extractLsb' 8 7) (w.extractLsb' 0 8)) := by simp [decodeScript, hw]
  simp only [replayWords, hd, replayEntry, busWrite_exact h, wordBytes_entry w hw]
  cases s.writeOracle.headD (.ok ()) <;> simp

/-- A replay whose writes are all answered `ok` sends every word once, in order (R457). -/
theorem replayWords_ok (ws : List (BitVec 16)) (s : State) (h : ExactSchedule s)
    (hq : ∀ a ∈ s.writeOracle.take ws.length, a = .ok ()) (hs : ∀ w ∈ ws, isScriptEntry w = true) :
    replayWords ws s =
      .ok (true, { replayed ws s with
        seqPc := ⟨s.seqPc.step, s.seqPc.idx + ws.length, s.seqPc.attempt⟩
        writeOracle := s.writeOracle.drop ws.length }) := by
  induction ws generalizing s with
  | nil => rfl
  | cons w ws ih =>
    have hk : s.writeOracle.headD (.ok ()) = .ok () := by
      cases hc : s.writeOracle with
      | nil => rfl
      | cons a q => exact hq a (by rw [hc]; exact List.mem_cons_self ..)
    have hq' : ∀ a ∈ s.writeOracle.tail.take ws.length, a = .ok () := by
      intro a ha
      apply hq a
      cases hc : s.writeOracle with
      | nil => rw [hc] at ha; simp at ha
      | cons b q => rw [hc] at ha; exact List.mem_cons_of_mem _ ha
    have key := ih (nextEntry { transacted .write (wordBytes w) 0 [] s with writeOracle := s.writeOracle.tail }) h hq'
      (fun x hx => hs x (List.mem_cons_of_mem _ hx))
    have upd := replayed_update ws (transacted .write (wordBytes w) 0 [] s)
      ⟨s.seqPc.step, s.seqPc.idx + 1, s.seqPc.attempt⟩ s.writeOracle.tail
    rw [replayWords_cons_exact h w ws (hs w (List.mem_cons_self ..))]
    simp only [hk, if_true]
    rw [key]
    have e : replayed ws (nextEntry { transacted .write (wordBytes w) 0 [] s with writeOracle := s.writeOracle.tail }) = _ := upd
    rw [e, replayed_cons]
    simp [nextEntry, transacted, Nat.add_assoc, Nat.add_comm 1]

/-- A replay whose (k+1)-th write faults sends k+1 words and ends in the fatal fault (R457, R462). -/
theorem replayWords_fault (ws : List (BitVec 16)) (s : State) (k : Nat) (rest : List (Answer Unit)) (h : ExactSchedule s)
    (hk : k < ws.length) (hq : s.writeOracle = List.replicate k (.ok ()) ++ .fault :: rest)
    (hs : ∀ w ∈ ws, isScriptEntry w = true) :
    replayWords ws s =
      .ok (false, failedAt ⟨s.seqPc.step, s.seqPc.idx + k, s.seqPc.attempt⟩
        { replayed (ws.take (k + 1)) s with writeOracle := rest }) := by
  induction ws generalizing s k with
  | nil => simp at hk
  | cons w ws ih =>
    rw [replayWords_cons_exact h w ws (hs w (List.mem_cons_self ..))]
    cases k with
    | zero =>
      have hq0 : s.writeOracle = .fault :: rest := hq
      rw [hq0]
      rfl
    | succ k =>
      have hq1 : s.writeOracle = .ok () :: (List.replicate k (.ok ()) ++ .fault :: rest) := hq
      have key := ih (nextEntry { transacted .write (wordBytes w) 0 [] s with writeOracle := s.writeOracle.tail }) k h
        (by simpa using hk) (by simp [nextEntry, hq1]) (fun x hx => hs x (List.mem_cons_of_mem _ hx))
      have upd := replayed_update (ws.take (k + 1)) (transacted .write (wordBytes w) 0 [] s)
        ⟨s.seqPc.step, s.seqPc.idx + 1, s.seqPc.attempt⟩ s.writeOracle.tail
      simp only [show s.writeOracle.headD (.ok ()) = .ok () by rw [hq1]; rfl, if_true]
      rw [key]
      have e : replayed (ws.take (k + 1))
        (nextEntry { transacted .write (wordBytes w) 0 [] s with writeOracle := s.writeOracle.tail }) = _ := upd
      rw [e, List.take_succ_cons, replayed_cons]
      simp [nextEntry, transacted, failedAt, Nat.add_assoc, Nat.add_comm 1]

/-! ### The verification poll -/

theorem polled_cons (b : Byte) (bs : List Byte) (s : State) :
    polled (b :: bs) s = polled bs (readAnswered s.params.verifyAddr b { s with now := pollTime s }) := rfl

/-- A poll touches the time, chip-select, the bus timing state and the trace only. -/
theorem polled_frame (bs : List Byte) (s : State) :
    polled bs s = { s with
      now := (polled bs s).now, ncs := (polled bs s).ncs, busLast := (polled bs s).busLast
      busLastEnd := (polled bs s).busLastEnd, wire := (polled bs s).wire } := by
  induction bs generalizing s with
  | nil => rfl
  | cons b bs ih =>
    rw [polled_cons, ih]
    rfl

/-- A poll moved past a sequencer position and an oracle queue. -/
theorem polled_update (bs : List Byte) (s : State) (pc : SeqPc) (q : List ReadAnswer) :
    polled bs { s with seqPc := pc, oracle := q } = { polled bs s with seqPc := pc, oracle := q } := by
  induction bs generalizing s with
  | nil => rfl
  | cons b bs ih =>
    rw [polled_cons, polled_cons, ← ih]
    rfl

/-- The wait before a verification read under an exact schedule. -/
theorem pollWait_exact {s : State} (h : ExactSchedule s) :
    waitFrom .sensor (lastEnd s) Config.tVerify s = { s with now := pollTime s } := by
  rw [waitFrom_runner h.1 h.2]
  rfl

/-- One verification read under an exact schedule that the sensor answers (R456). -/
theorem verifyPoll_byte (n : Nat) {s : State} (h : ExactSchedule s) (ha : s.params.verifyAddr ≠ s.params.burstAddr) {b : Byte}
    {rest : List ReadAnswer} (ho : s.oracle = .byte b :: rest) :
    verifyPoll (n + 1) s =
      (let t := nextAttempt { readAnswered s.params.verifyAddr b { s with now := pollTime s } with oracle := rest }
       if b = 0x80 then .ok (gotoStep .close t) else verifyPoll n t) := by
  have hr := busRead_exact (s := { s with now := pollTime s }) (b := b) (rest := rest) h ha ho
  simp only [verifyPoll, pollWait_exact h, hr, Config.verifyExpect]
  rfl

/-- One verification read under an exact schedule that faults (R456, R462). -/
theorem verifyPoll_faulted (n : Nat) {s : State} (h : ExactSchedule s) (ha : s.params.verifyAddr ≠ s.params.burstAddr)
    {rest : List ReadAnswer} (ho : s.oracle = .fault :: rest) :
    verifyPoll (n + 1) s =
      .ok (fatalFault (nextAttempt
        { readFaulted s.params.verifyAddr { s with now := pollTime s } with oracle := rest })) := by
  have hr := busRead_exact_fault (s := { s with now := pollTime s }) (rest := rest) h ha ho
  simp only [verifyPoll, pollWait_exact h, hr]

/-- A poll after some bytes other than 0x80 (R456). -/
theorem verifyPoll_bad (bad : List Byte) (n : Nat) {s : State} (h : ExactSchedule s)
    (ha : s.params.verifyAddr ≠ s.params.burstAddr) {rest : List ReadAnswer} (ho : s.oracle = bad.map .byte ++ rest)
    (hb : ∀ b ∈ bad, b ≠ 0x80) :
    verifyPoll (n + bad.length) s =
      verifyPoll n { polled bad s with
        seqPc := ⟨s.seqPc.step, s.seqPc.idx, s.seqPc.attempt + bad.length⟩, oracle := rest } := by
  induction bad generalizing s with
  | nil =>
    have e : s = { s with oracle := rest } := by
      obtain ⟨⟩ := s
      cases ho
      rfl
    rw [e]
    rfl
  | cons b bad ih =>
    have ho' : s.oracle = .byte b :: (bad.map .byte ++ rest) := ho
    have h1 := verifyPoll_byte (n + bad.length) h ha ho'
    rw [show n + (b :: bad).length = n + bad.length + 1 from rfl, h1]
    simp only [hb b (List.mem_cons_self ..), if_false]
    have upd := polled_update bad (readAnswered s.params.verifyAddr b { s with now := pollTime s })
      ⟨s.seqPc.step, s.seqPc.idx, s.seqPc.attempt + 1⟩ (bad.map .byte ++ rest)
    have key := ih (s := nextAttempt { readAnswered s.params.verifyAddr b { s with now := pollTime s } with
      oracle := bad.map .byte ++ rest }) h ha rfl (fun x hx => hb x (List.mem_cons_of_mem _ hx))
    rw [key]
    have e : polled bad (nextAttempt { readAnswered s.params.verifyAddr b { s with now := pollTime s } with
      oracle := bad.map .byte ++ rest }) = _ := upd
    rw [e, polled_cons]
    simp [nextAttempt, readAnswered, transacted, Nat.add_assoc, Nat.add_comm 1]

/-! ### The diagnostic reads -/

theorem readEach_cons (a : Addr) (b : Byte) (l : List (Addr × Byte)) (s : State) :
    readEach ((a, b) :: l) s = readEach l (readAnswered a b s) := rfl

/-- Reads touch the time, chip-select, the bus timing state and the trace only. -/
theorem readEach_frame (l : List (Addr × Byte)) (s : State) :
    readEach l s = { s with
      now := (readEach l s).now, ncs := (readEach l s).ncs, busLast := (readEach l s).busLast
      busLastEnd := (readEach l s).busLastEnd, wire := (readEach l s).wire } := by
  induction l generalizing s with
  | nil => rfl
  | cons x l ih =>
    obtain ⟨a, b⟩ := x
    rw [readEach_cons, ih]
    rfl

/-- Reads moved past a sequencer position, the stored diagnostics and an oracle queue. -/
theorem readEach_update (l : List (Addr × Byte)) (s : State) (pc : SeqPc) (d : List Byte) (q : List ReadAnswer) :
    readEach l { s with seqPc := pc, diag := d, oracle := q } = { readEach l s with seqPc := pc, diag := d, oracle := q } := by
  induction l generalizing s with
  | nil => rfl
  | cons x l ih =>
    obtain ⟨a, b⟩ := x
    rw [readEach_cons, readEach_cons, ← ih]
    rfl

/-- Storing a byte at a place, then the following ones, is storing them all from that place on. -/
theorem storeFrom_cons (d : List Byte) (i : Nat) (b : Byte) (bs : List Byte) (h : i < d.length) :
    (d.set i b).take (i + 1) ++ bs ++ (d.set i b).drop (i + 1 + bs.length) =
      d.take i ++ (b :: bs) ++ d.drop (i + (b :: bs).length) := by
  rw [List.drop_set_of_lt (by omega), List.take_succ_eq_append_getElem (by simpa using h)]
  simp [List.take_set_of_le (Nat.le_refl i), Nat.add_assoc, Nat.add_comm 1]

/-- Diagnostic reads that the sensor answers, as far as bytes are given (R458). -/
theorem diagReads_bytes (addrs more : List Addr) (bytes : List Byte) {s : State} (h : ExactSchedule s)
    (ha : s.params.burstAddr ∉ addrs) (hl : addrs.length = bytes.length) {rest : List ReadAnswer}
    (ho : s.oracle = bytes.map .byte ++ rest) (hd : s.seqPc.idx + bytes.length ≤ s.diag.length) :
    diagReads (addrs ++ more) s =
      diagReads more { readEach (addrs.zip bytes) s with
        seqPc := ⟨s.seqPc.step, s.seqPc.idx + bytes.length, s.seqPc.attempt⟩
        diag := s.diag.take s.seqPc.idx ++ bytes ++ s.diag.drop (s.seqPc.idx + bytes.length)
        oracle := rest } := by
  induction addrs generalizing s bytes with
  | nil =>
    cases bytes with
    | nil =>
      have e : s = { s with oracle := rest } := by
        obtain ⟨⟩ := s
        cases ho
        rfl
      simp only [List.nil_append, List.zip_nil_left, List.length_nil, Nat.add_zero, List.append_nil, List.take_append_drop]
      rw [e]
      rfl
    | cons b bytes => simp at hl
  | cons a addrs ih =>
    cases bytes with
    | nil => simp at hl
    | cons b bytes =>
      have hne : a ≠ s.params.burstAddr := fun e => ha (by rw [← e]; exact List.mem_cons_self ..)
      have ho' : s.oracle = .byte b :: (bytes.map .byte ++ rest) := ho
      have h1 := busRead_exact h hne ho'
      simp only [List.cons_append, diagReads, h1]
      have hlt : s.seqPc.idx < s.diag.length := by simp at hd; omega
      have key := ih bytes (s := nextEntry (storeDiag b { readAnswered a b s with oracle := bytes.map .byte ++ rest })) h
        (fun m => ha (List.mem_cons_of_mem _ m)) (by simpa using hl) rfl
        (by simp [nextEntry, storeDiag, readAnswered, transacted] at hd ⊢; omega)
      have upd := readEach_update (addrs.zip bytes) (readAnswered a b s)
        ⟨s.seqPc.step, s.seqPc.idx + 1, s.seqPc.attempt⟩ (s.diag.set s.seqPc.idx b) (bytes.map .byte ++ rest)
      rw [key]
      have e : readEach (addrs.zip bytes)
        (nextEntry (storeDiag b { readAnswered a b s with oracle := bytes.map .byte ++ rest })) = _ := upd
      have st := storeFrom_cons s.diag s.seqPc.idx b bytes hlt
      rw [e, List.zip_cons_cons, readEach_cons, ← st]
      simp [nextEntry, storeDiag, readAnswered, transacted, Nat.add_assoc, Nat.add_comm 1]

end Sys2Proof.Machine
end

