-- ==== Sys2Proof/Laws/Driver.lean ====
section
/-! SUPPORT. What bus transactions and the steps of the bring-up do to the driver's own state, under any schedule and whatever
the sensor answers (40_register_bus.md, 41_sensor_driver.md). -/

namespace Sys2Proof.Machine

/-- A transaction ends with chip-select released, leaves the driver alone and adds to the bus trace (40_register_bus.md
R401). -/
structure Transacted (s t : State) : Prop where
  params : t.params = s.params
  power : t.power = s.power
  nreset : t.nreset = s.nreset
  drvState : t.drvState = s.drvState
  degraded : t.degraded = s.degraded
  mode : t.mode = s.mode
  diag : t.diag = s.diag
  seqPc : t.seqPc = s.seqPc
  ncs : t.ncs = true
  wire : ∃ l, t.wire = s.wire ++ l

theorem transacted_busWrite (a : Addr) (v : Byte) (s : State) : Transacted s (busWrite a v s).2 := by
  constructor <;> simp [busWrite, askWrite, busSend, busAssert]

theorem transacted_busRead {a : Addr} {s t : State} {r : Answer Byte} (h : busRead a s = .ok (r, t)) : Transacted s t := by
  simp only [busRead] at h
  split at h
  · simp [refuse] at h
  simp only [askByte] at h
  split at h
  · simp at h
  rename_i q hq
  split at hq <;> simp [refuse] at hq <;>
    (obtain ⟨_, hq⟩ := hq; subst hq; simp at h; obtain ⟨_, h⟩ := h; subst h; constructor <;> simp [busSend, busAssert])

theorem transacted_busBurst {s t : State} {r : Answer (List Byte)} {ts : Time} (h : busBurst s = .ok (r, ts, t)) :
    Transacted s t := by
  simp only [busBurst] at h
  split at h
  · simp at h
  rename_i q hq
  simp only [askBurst] at hq
  split at hq
  · simp [refuse] at hq
  · split at hq <;> simp [refuse] at hq
    obtain ⟨_, hq⟩ := hq; subst hq; simp at h; obtain ⟨_, _, h⟩ := h; subst h
    constructor <;> simp [busSend, busAssert]
  · simp at hq
    obtain ⟨_, hq⟩ := hq; subst hq; simp at h; obtain ⟨_, _, h⟩ := h; subst h
    constructor <;> simp [busSend, busAssert]
  · simp [refuse] at hq

/-- A step of the bring-up that ends with the driver at a given state, DEGRADED bit and sequencer step; the rest of the
driver is kept (41_sensor_driver.md R450). -/
structure Sequenced (s t : State) (drv : DrvState) (degraded : Bool) (st : SeqStep) : Prop where
  params : t.params = s.params
  power : t.power = s.power
  nreset : t.nreset = s.nreset
  mode : t.mode = s.mode
  ncs : t.ncs = true
  diagSize : t.diag.length = s.diag.length
  drvState : t.drvState = drv
  isDegraded : t.degraded = degraded
  step : t.seqPc.step = st

theorem sequenced_trans {s t u : State} {d d' : DrvState} {g g' : Bool} {st st' : SeqStep} (h : Sequenced s t d g st)
    (k : Sequenced t u d' g' st') : Sequenced s u d' g' st' :=
  ⟨k.params.trans h.params, k.power.trans h.power, k.nreset.trans h.nreset, k.mode.trans h.mode, k.ncs,
    k.diagSize.trans h.diagSize, k.drvState, k.isDegraded, k.step⟩

theorem sequenced_refl {s : State} (h : s.ncs = true) : Sequenced s s s.drvState s.degraded s.seqPc.step :=
  ⟨rfl, rfl, rfl, rfl, h, rfl, rfl, rfl, rfl⟩

/-- A fatal fault after a transaction (R462). -/
theorem sequenced_fatal {s t : State} (h : Transacted s t) : Sequenced s (fatalFault t) .failed s.degraded .fail := by
  constructor <;> simp [fatalFault, setDrv, raiseEvent, h.params, h.power, h.nreset, h.ncs, h.diag, h.degraded, h.mode]

/-- One script entry: its write, then the next entry or the fatal fault (R457, R462). -/
theorem replayEntry_cases (a : Addr) (v : Byte) (s : State) :
    ∃ u, Transacted s u ∧ (replayEntry a v s = (true, nextEntry u) ∨ replayEntry a v s = (false, fatalFault u)) := by
  refine ⟨_, transacted_busWrite a v s, ?_⟩
  simp only [replayEntry]
  split
  · exact .inl rfl
  · exact .inr rfl

/-- A script replay ends where it began, or failed (R457, R462). -/
theorem sequenced_replay (ws : List (BitVec 16)) {s t : State} {b : Bool} (hn : s.ncs = true)
    (h : replayWords ws s = .ok (b, t)) :
    (b = true ∧ Sequenced s t s.drvState s.degraded s.seqPc.step ∨ b = false ∧ Sequenced s t .failed s.degraded .fail) ∧
      t.seqPc.attempt = s.seqPc.attempt := by
  induction ws generalizing s with
  | nil =>
    simp only [replayWords, Except.ok.injEq, Prod.mk.injEq] at h
    obtain ⟨rfl, rfl⟩ := h
    exact ⟨.inl ⟨rfl, sequenced_refl hn⟩, rfl⟩
  | cons w ws ih =>
    simp only [replayWords] at h
    split at h
    · rename_i a v _
      obtain ⟨u, k, hu | hu⟩ := replayEntry_cases a v s
      · simp only [hu, if_true] at h
        have e : Sequenced s (nextEntry u) s.drvState s.degraded s.seqPc.step := by
          constructor <;>
            simp [nextEntry, k.params, k.power, k.nreset, k.ncs, k.diag, k.drvState, k.degraded, k.mode, k.seqPc]
        obtain ⟨i, ia⟩ := ih e.ncs h
        rw [e.drvState, e.isDegraded, e.step] at i
        refine ⟨?_, by rw [ia]; simp [nextEntry, k.seqPc]⟩
        rcases i with ⟨i, j⟩ | ⟨i, j⟩
        · exact .inl ⟨i, sequenced_trans e j⟩
        · exact .inr ⟨i, sequenced_trans e j⟩
      · simp [hu] at h
        obtain ⟨rfl, rfl⟩ := h
        exact ⟨.inr ⟨rfl, sequenced_fatal k⟩, by simp [fatalFault, setDrv, raiseEvent, k.seqPc]⟩
    · simp [refuse] at h
    · simp [refuse] at h

/-- The verification poll ends at `S_CLOSE`, degraded at `S_REPAIR`, or failed (R456). -/
theorem sequenced_verify (n : Nat) {s t : State} (hn : s.ncs = true) (ha : s.seqPc.attempt + n ≤ Config.verifyAttempts)
    (h : verifyPoll n s = .ok t) :
    (Sequenced s t s.drvState s.degraded .close ∨ Sequenced s t s.drvState true .repair ∨
      Sequenced s t .failed s.degraded .fail) ∧ t.seqPc.attempt ≤ Config.verifyAttempts := by
  induction n generalizing s with
  | zero =>
    simp only [verifyPoll, Except.ok.injEq] at h
    subst h
    exact ⟨.inr (.inl ⟨rfl, rfl, rfl, rfl, hn, rfl, rfl, rfl, rfl⟩), ha⟩
  | succ n ih =>
    simp only [verifyPoll] at h
    split at h
    · simp at h
    · rename_i u hr
      have k := transacted_busRead hr
      simp only [Except.ok.injEq] at h
      subst h
      refine ⟨.inr (.inr ?_), ?_⟩
      · constructor <;>
          simp [fatalFault, setDrv, raiseEvent, nextAttempt, k.params, k.power, k.nreset, k.ncs, k.diag, k.degraded, k.mode]
      · simp [fatalFault, setDrv, raiseEvent, nextAttempt, k.seqPc]; omega
    · rename_i b u hr
      have k := transacted_busRead hr
      have e : Sequenced s (nextAttempt u) s.drvState s.degraded s.seqPc.step := by
        constructor <;>
          simp [nextAttempt, k.params, k.power, k.nreset, k.ncs, k.diag, k.drvState, k.degraded, k.mode, k.seqPc]
      have ea : (nextAttempt u).seqPc.attempt = s.seqPc.attempt + 1 := by simp [nextAttempt, k.seqPc]
      split at h
      · simp only [Except.ok.injEq] at h
        subst h
        refine ⟨.inl (sequenced_trans e ⟨rfl, rfl, rfl, rfl, e.ncs, rfl, e.drvState, e.isDegraded, rfl⟩), ?_⟩
        exact Nat.le_trans (Nat.le_of_eq ea) (by omega)
      · obtain ⟨i, ia⟩ := ih e.ncs (by omega) h
        rw [e.drvState, e.isDegraded] at i
        refine ⟨?_, ia⟩
        rcases i with i | i | i
        · exact .inl (sequenced_trans e i)
        · exact .inr (.inl (sequenced_trans e i))
        · exact .inr (.inr (sequenced_trans e i))

/-- The diagnostic reads end at `S_MVALID` or failed (R458). -/
theorem sequenced_diag (addrs : List Addr) {s t : State} (hn : s.ncs = true) (h : diagReads addrs s = .ok t) :
    (Sequenced s t s.drvState s.degraded .mvalid ∨ Sequenced s t .failed s.degraded .fail) ∧
      t.seqPc.attempt = s.seqPc.attempt := by
  induction addrs generalizing s with
  | nil =>
    simp only [diagReads, Except.ok.injEq] at h
    subst h
    exact ⟨.inl ⟨rfl, rfl, rfl, rfl, hn, rfl, rfl, rfl, rfl⟩, rfl⟩
  | cons a addrs ih =>
    simp only [diagReads] at h
    split at h
    · simp at h
    · rename_i u hr
      have k := transacted_busRead hr
      simp only [Except.ok.injEq] at h
      subst h
      exact ⟨.inr (sequenced_fatal k), by simp [fatalFault, setDrv, raiseEvent, k.seqPc]⟩
    · rename_i b u hr
      have k := transacted_busRead hr
      have e : Sequenced s (nextEntry (storeDiag b u)) s.drvState s.degraded s.seqPc.step := by
        constructor <;>
          simp [nextEntry, storeDiag, k.params, k.power, k.nreset, k.ncs, k.diag, k.drvState, k.degraded, k.mode, k.seqPc]
      obtain ⟨i, ia⟩ := ih e.ncs h
      rw [e.drvState, e.isDegraded] at i
      refine ⟨?_, by rw [ia]; simp [nextEntry, storeDiag, k.seqPc]⟩
      rcases i with i | i
      · exact .inl (sequenced_trans e i)
      · exact .inr (sequenced_trans e i)

end Sys2Proof.Machine
end

