-- ==== Sys2Proof/Laws/Events.lean ====
section
/-! SUPPORT. The event trace as an observer reads it (60_exceptions.md R801). -/

namespace Sys2Proof.Machine

/-- A record tells its event: no two events look alike in `EVENTS`. -/
theorem eventRecord_injective {d e : Event} (h : eventRecord d = eventRecord e) : d = e := by
  cases d <;> cases e <;> simp [eventRecord, eventCode, eventInfo] at h ⊢
  case spuriousEdge.spuriousEdge a b => cases a <;> cases b <;> simp_all [mainButtonCode]
  case auxBounce.auxBounce a b => cases a <;> cases b <;> simp_all [auxButtonCode]
  all_goals exact h

/-- `raise` appends the event's record to the trace. -/
@[simp] theorem eventTrace_raiseEvent (e : Event) (s : State) :
    eventTrace (raiseEvent e s) = eventTrace s ++ [eventRecord e] := by
  simp [eventTrace, raiseEvent]

end Sys2Proof.Machine
end

