-- ==== Sys2Proof/Laws/Params.lean ====
section
/-! SUPPORT. What a well-formed parameter set gives (00_scope.md R8), and how the OPEN parameters are built. -/

namespace Sys2Proof

open Sys2Proof.Machine Sys2Proof.Safety

variable {p : Params}

/-- Every constraint of R8 that a well-formed parameter set meets. -/
theorem wf_facts (h : p.wf = true) :
    (2 ≤ p.rbN ∧ p.rbN ≤ 256) ∧ p.diagAddr.length = 5 ∧ p.seqRepair.length = 3 ∧ 1 ≤ p.seqClose.length ∧
    p.seqClose.length < p.seqFirst.length ∧ (∀ w ∈ p.scriptWords, isScriptEntry w = true) ∧
    (1 ≤ p.speedMax ∧ p.speedMax ≤ 127) ∧ p.verifyAddr ≠ p.burstAddr ∧ p.burstAddr ∉ p.diagAddr := by
  simp only [Params.wf, Params.refusal] at h
  repeat' split at h
  all_goals first | (simp at h; done) | skip
  rename_i h1 h2 h3 h4 h5 h6
  simp only [Bool.not_eq_false, List.all_eq_true] at h4
  exact ⟨by omega, by omega, by omega, by omega, by omega, h4, by omega, fun e => h6 (.inl e), fun e => h6 (.inr e)⟩

/-- Every word of a script is an entry. -/
theorem wf_entries (h : p.wf = true) (sc : ScriptId) : ∀ w ∈ scriptOf p sc, isScriptEntry w = true := by
  intro w hw
  apply (wf_facts h).2.2.2.2.2.1
  simp only [Params.scriptWords]
  cases sc with
  | mode m => cases m <;> simp [scriptOf, Params.modeTable] at hw <;> simp [hw]
  | _ => simp [scriptOf] at hw; simp [hw]

theorem otherThan_ne (burst a : Addr) : Config.otherThan burst a ≠ burst := by
  simp only [Config.otherThan]
  split
  · intro h
    have := congrArg BitVec.toNat h
    rw [BitVec.toNat_add] at this
    have := burst.isLt
    simp at *
  · assumption

theorem scriptWord_entry (e : BitVec 15) : isScriptEntry (Config.scriptWord e) = true := by
  simp only [isScriptEntry, Config.scriptWord, BitVec.getLsbD_append]
  rfl

end Sys2Proof
end

