-- ==== Sys2Proof/Laws/Ring.lean ====
section
/-! SUPPORT. The ring operations: what a merge and a push store, what a drain reports (42_ring_buffer.md). -/

namespace Sys2Proof.Machine

open Sys2Proof.Safety

variable {s : State}

/-- The next index, written without the remainder. -/
theorem nextIndex_eq (i : Nat) (h : i < s.params.rbN) :
    nextIndex s i = if i + 1 = s.params.rbN then 0 else i + 1 := by
  simp only [nextIndex]
  split
  · rename_i e; rw [e, Nat.mod_self]
  · exact Nat.mod_eq_of_lt (by omega)

theorem nextIndex_lt (i : Nat) (h : 0 < s.params.rbN) : nextIndex s i < s.params.rbN := Nat.mod_lt _ h

/-- The live count, written without the remainder (R502). -/
theorem liveCount_eq (hw : s.rbW < s.params.rbN) (hr : s.rbR < s.params.rbN) :
    liveCount s = if s.rbR ≤ s.rbW then s.rbW - s.rbR else s.rbW + s.params.rbN - s.rbR := by
  unfold liveCount
  split
  · rw [show s.rbW + s.params.rbN - s.rbR = (s.rbW - s.rbR) + s.params.rbN by omega, Nat.add_mod_right,
      Nat.mod_eq_of_lt (by omega)]
  · exact Nat.mod_eq_of_lt (by omega)

theorem readSlot_ok (i : Nat) (h : i < s.rb.length) : readSlot s i = .ok s.rb[i] := by
  simp [readSlot, List.getElem?_eq_getElem h]

theorem writeSlot_ok (i : Nat) (x : Sample) (h : i < s.rb.length) : writeSlot i x s = .ok { s with rb := s.rb.set i x } := by
  simp [writeSlot, h]

/-- A merge, where both slots exist (R501). -/
theorem mergeOldest_ok (h : s.rbR < s.rb.length) (h' : nextIndex s s.rbR < s.rb.length) :
    mergeOldest s = .ok { s with
      rb := s.rb.set (nextIndex s s.rbR) (mergedSample s.rb[s.rbR] s.rb[nextIndex s s.rbR])
      rbR := nextIndex s s.rbR
      ovfCount := s.ovfCount + 1
      events := s.events ++ [.rbOverflow s.rbR] } := by
  simp [mergeOldest, readSlot_ok _ h, readSlot_ok _ h', writeSlot_ok _ _ h', raiseEvent]

/-- A push that does not meet the read index (R500). -/
theorem pushSample_free (x : Sample) (h : s.rbW < s.rb.length) (hn : nextIndex s s.rbW ≠ s.rbR) :
    pushSample x s = .ok { s with rb := s.rb.set s.rbW x, rbW := nextIndex s s.rbW } := by
  simp [pushSample, writeSlot_ok _ _ h, hn, setWriteIndex]

/-- A push that meets it: the merge of the stored state, then the write index (R500, R501). -/
theorem pushSample_full (x : Sample) (h : s.rbW < s.rb.length) (hn : nextIndex s s.rbW = s.rbR) {u : State}
    (hu : mergeOldest { s with rb := s.rb.set s.rbW x } = .ok u) :
    pushSample x s = .ok (setWriteIndex (nextIndex s s.rbW) u) := by
  simp [pushSample, writeSlot_ok _ _ h, hn, hu]

/-- What a push can do: it changes slots, indices, the overflow count and the events, and keeps the ring's size. -/
theorem pushSample_kept {x : Sample} {t : State} (h : pushSample x s = .ok t) :
    ∃ l r c e, t = { s with rb := l, rbR := r, rbW := nextIndex s s.rbW, ovfCount := c, events := s.events ++ e } ∧
      l.length = s.rb.length ∧ (r = s.rbR ∨ r = nextIndex s s.rbR) ∧ (e = [] ∨ e = [.rbOverflow s.rbR]) := by
  simp only [pushSample] at h
  split at h
  · simp at h
  rename_i u hu
  simp only [writeSlot] at hu
  split at hu <;> simp at hu
  subst hu
  split at h
  · split at h
    · simp at h
    rename_i v hv
    simp only [mergeOldest] at hv
    split at hv
    · split at hv
      · rename_i w hw
        simp only [writeSlot] at hw
        split at hw <;> simp at hw
        subst hw
        simp at hv h
        subst hv h
        exact ⟨_, _, _, _, rfl, by simp, .inr rfl, .inr rfl⟩
      · simp at hv
    · simp at hv
    · simp at hv
  · simp at h
    subst h
    exact ⟨s.rb.set s.rbW x, s.rbR, s.ovfCount, [], by simp [setWriteIndex], by simp, .inl rfl, .inl rfl⟩

/-- Reports emitted under any schedule: the other agents act in between, nothing else changes but the reports (R506). -/
theorem othersActed_emitAll (rs : List Report) (s : State) : OthersActed s (emitAll rs s) := by
  induction rs generalizing s with
  | nil => exact othersActed_refl s
  | cons r rs ih =>
    exact othersActed_trans (othersActed_trans (othersActed_emit r s) (othersActed_yield _ _)) (ih _)

theorem emitAll_exact (rs : List Report) (s : State) (h : s.interludes = []) :
    emitAll rs s = { s with reports := s.reports ++ rs } := by
  induction rs generalizing s with
  | nil => simp [emitAll]
  | cons r rs ih => rw [emitAll, yield_nil (by exact h), ih _ (by exact h)]; simp [emitReport]

/-- A drain under any schedule, and whatever the ring: no slot and no write index changes (R505). -/
theorem drainLoop_kept (n : Nat) {t : State} (h : drainLoop n s = .ok t) :
    t.rb = s.rb ∧ t.rbW = s.rbW ∧ t.params = s.params ∧ (s.rbR < s.params.rbN → t.rbR < t.params.rbN) := by
  induction n generalizing s with
  | zero => simp only [drainLoop, Except.ok.injEq] at h; subst h; exact ⟨rfl, rfl, rfl, id⟩
  | succ n ih =>
    simp only [drainLoop] at h
    split at h
    · simp only [Except.ok.injEq] at h; subst h; exact ⟨rfl, rfl, rfl, id⟩
    · split at h
      · simp at h
      · rename_i x _
        have k := othersActed_emitAll (sampleReports x) s
        obtain ⟨i1, i2, i3, i4⟩ := ih h
        have e : emitMotion x s = emitAll (sampleReports x) s := rfl
        simp [advanceRead, e, k.rb, k.rbW, k.rbR, k.params] at i1 i2 i3 i4
        refine ⟨i1, i2, i3, fun h => i4 ?_⟩
        have := nextIndex_lt (s := s) s.rbR (by omega)
        simpa [nextIndex, k.params] using this

/-- A drain completes under any schedule, if the ring is well formed (R505). -/
theorem drainLoop_completes (n : Nat) (h : RingOk s) : ∃ t, drainLoop n s = .ok t := by
  induction n generalizing s with
  | zero => exact ⟨_, rfl⟩
  | succ n ih =>
    simp only [drainLoop]
    split
    · exact ⟨_, rfl⟩
    · have hl : s.rbR < s.rb.length := by rw [h.slots]; exact h.read
      rw [readSlot_ok _ hl]
      have k := othersActed_emitAll (sampleReports s.rb[s.rbR]) s
      have hlt := nextIndex_lt (s := s) s.rbR (Nat.lt_of_le_of_lt (Nat.zero_le _) h.read)
      apply ih
      constructor <;>
        simp [advanceRead, emitMotion, k.params, k.rb, k.rbW, k.rbR, h.params, h.slots, h.write]
      simpa [nextIndex, k.params] using hlt

/-- A drain with nobody in between reports every live sample, oldest first (R505). -/
theorem drainLoop_exact (n : Nat) (s : State) (h : RingOk s) (hi : s.interludes = []) (hn : liveCount s ≤ n) :
    drainLoop n s = .ok { s with rbR := s.rbW, reports := s.reports ++ liveReports s } := by
  have hw := h.write
  have hr := h.read
  induction n generalizing s with
  | zero =>
    have c := liveCount_eq hw hr
    have e : s.rbR = s.rbW := by split at c <;> omega
    have z : liveCount s = 0 := by omega
    obtain ⟨⟩ := s; simp at e; subst e; simp [drainLoop, liveReports, liveSamples, z]
  | succ n ih =>
    by_cases e : s.rbR = s.rbW
    · have z : liveCount s = 0 := by rw [liveCount_eq hw hr]; simp [e]
      obtain ⟨⟩ := s; simp at e; subst e; simp [drainLoop, liveReports, liveSamples, z]
    · have hl : s.rbR < s.rb.length := by rw [h.slots]; exact hr
      simp only [drainLoop, e, if_false, readSlot_ok _ hl]
      rw [emitMotion, emitAll_exact _ _ hi, yield_nil (by exact hi)]
      have hlt := nextIndex_lt (s := s) s.rbR (by omega)
      have m := nextIndex_eq (s := s) s.rbR hr
      have c1 := liveCount_eq hw hr
      have c2 : liveCount (advanceRead { s with reports := s.reports ++ sampleReports s.rb[s.rbR] }) + 1 = liveCount s := by
        rw [c1, liveCount_eq (by exact hw) (by exact hlt)]
        show (if nextIndex s s.rbR ≤ s.rbW then s.rbW - nextIndex s s.rbR
          else s.rbW + s.params.rbN - nextIndex s s.rbR) + 1 = _
        generalize nextIndex s s.rbR = q at *
        split at m
        all_goals (repeat' split)
        all_goals omega
      rw [ih]
      · have key : liveSamples s =
            s.rb[s.rbR] :: liveSamples (advanceRead { s with reports := s.reports ++ sampleReports s.rb[s.rbR] }) := by
          simp only [liveSamples]
          rw [← c2, List.range_succ_eq_map]
          simp [Nat.mod_eq_of_lt hr, List.getElem?_eq_getElem hl]
          intro k hk
          simp [nextIndex, Nat.add_assoc, Nat.add_comm 1]
        simp only [liveReports]
        rw [key]
        simp [advanceRead]
      · exact ⟨h.params, h.slots, hw, hlt⟩
      · exact hi
      · omega
      · exact hw
      · exact hlt

end Sys2Proof.Machine
end

