-- ==== Sys2Proof/Laws/SensorTask.lean ====
section
/-! SUPPORT. What one rule step of the sensor task can do: once for each operation of Machine/SensorTask.lean, and `SensorMoved`
for all of them together (10_state.md R171, R172; 60_exceptions.md R850). -/

namespace Sys2Proof.Machine

open Sys2Proof.Safety

/-! ### The operations -/

/-- A wait goes on, or ends when its time has passed (40_register_bus.md R426). -/
theorem endWait_cases (t0 : Time) (T : Nat) (p : SensorPos) (s : State) :
    endWait t0 T p s = s ∨ T ≤ elapsedSince s.now t0 ∧ endWait t0 T p s = goTo p (dropSlack s) := by
  simp only [endWait]
  split
  · exact .inl rfl
  · exact .inr ⟨by omega, rfl⟩

/-- A wait of a transaction goes on, or ends, and corrupts the bus if it ends too early (R428). -/
theorem endBusWait_cases (t0 : Time) (T : Nat) (p : SensorPos) (s : State) :
    endBusWait t0 T p s = s ∨
    endBusWait t0 T p s = goTo p (corruptIf (decide (elapsedSince s.now t0 < T)) (dropSlack s)) := by
  simp only [endBusWait]
  split
  · exact .inl rfl
  · exact .inr rfl

/-- With no slack to come, a wait of a transaction never ends too early. -/
theorem endBusWait_exact (t0 : Time) (T : Nat) (p : SensorPos) {s : State} (h : s.slacks = []) :
    endBusWait t0 T p s = if elapsedSince s.now t0 < T then s else goTo p s := by
  have d : dropSlack s = s := by
    obtain ⟨⟩ := s
    cases h
    rfl
  have k : ∀ b : Bool, b = false → corruptIf b s = s := by
    intro b hb
    obtain ⟨⟩ := s
    simp [corruptIf, hb]
  simp only [endBusWait, nextSlack, h, d]
  by_cases e : elapsedSince s.now t0 < T
  · simp [e]
  · simp [e, k]

/-- A transaction that is begun waits for its gap first (R425), and never reads `BURST_ADDR` (30_encoding.md R308). -/
theorem openCall_ok {c : BusCall} {s t : State} (h : openCall c s = .ok t) :
    t = goTo (.bus c (.gap (lastEnd s))) s ∧ c ≠ .diag s.params.burstAddr := by
  simp only [openCall] at h
  split at h
  · simp [refuse] at h
  · rename_i n
    exact ⟨(Except.ok.inj h).symm, fun e => n (.inr e)⟩

/-- A script goes on to a write of its own, or past its end (41_sensor_driver.md R457). -/
theorem nextWrite_ok {sc : ScriptId} {s t : State} (h : nextWrite sc s = .ok t) :
    (∃ a v, t = goTo (.bus (.entry sc a v) (.gap (lastEnd s))) s) ∨
    t = goTo (afterScript sc) s := by
  simp only [nextWrite] at h
  split at h
  · exact .inr (Except.ok.inj h).symm
  · split at h
    · exact .inl ⟨_, _, (openCall_ok h).1⟩
    · simp [refuse] at h
    · simp [refuse] at h

/-- The diagnostic reads go on to a read, or past the last address (R458). -/
theorem nextDiag_ok {s t : State} (h : nextDiag s = .ok t) :
    (∃ a, t = goTo (.bus (.diag a) (.gap (lastEnd s))) s) ∨ t = goTo .leave s := by
  simp only [nextDiag] at h
  split at h
  · exact .inr (Except.ok.inj h).symm
  · exact .inl ⟨_, (openCall_ok h).1⟩

/-! ### What a step of the sensor task leaves alone -/

/-- Between `s` and `t` only the sensor task took a step. -/
structure SensorMoved (s t : State) : Prop where
  params : t.params = s.params
  now : t.now = s.now
  pins : t.pins = s.pins
  irqPending : t.irqPending = s.irqPending
  mlState : t.mlState = s.mlState
  mlFlag : t.mlFlag = s.mlFlag
  axState : t.axState = s.axState
  axEvent : t.axEvent = s.axEvent
  axConfirm : t.axConfirm = s.axConfirm
  axHoldTs : t.axHoldTs = s.axHoldTs
  scPhaseA : t.scPhaseA = s.scPhaseA
  scPhaseB : t.scPhaseB = s.scPhaseB
  scDir : t.scDir = s.scDir
  scSpeed : t.scSpeed = s.scSpeed
  scStopped : t.scStopped = s.scStopped
  scEvent : t.scEvent = s.scEvent
  shutdownReq : t.shutdownReq = s.shutdownReq
  runButton : t.runButton = s.runButton
  runScroll : t.runScroll = s.runScroll
  buttonK : t.buttonK = s.buttonK
  buttonSleep : t.buttonSleep = s.buttonSleep
  scrollK : t.scrollK = s.scrollK
  scrollSleep : t.scrollSleep = s.scrollSleep
  interludes : t.interludes = s.interludes
  ret : t.ret = s.ret
  agenda : t.agenda = s.agenda
  pos : t.pos = s.pos
  ended : t.ended = s.ended
  reports : ∃ l, t.reports = s.reports ++ l
  events : ∃ l, t.events = s.events ++ l
  wire : ∃ l, t.wire = s.wire ++ l

theorem sensorMoved_refl (s : State) : SensorMoved s s := by
  constructor <;> first | rfl | exact ⟨[], (List.append_nil _).symm⟩

theorem sensorMoved_trans {s t u : State} (h : SensorMoved s t) (k : SensorMoved t u) : SensorMoved s u := by
  obtain ⟨l, hl⟩ := h.reports
  obtain ⟨l', hl'⟩ := k.reports
  obtain ⟨m, hm⟩ := h.events
  obtain ⟨m', hm'⟩ := k.events
  obtain ⟨w, hw⟩ := h.wire
  obtain ⟨w', hw'⟩ := k.wire
  constructor
  case reports => exact ⟨l ++ l', by rw [hl', hl, List.append_assoc]⟩
  case events => exact ⟨m ++ m', by rw [hm', hm, List.append_assoc]⟩
  case wire => exact ⟨w ++ w', by rw [hw', hw, List.append_assoc]⟩
  all_goals first
    | exact k.params.trans h.params | exact k.now.trans h.now | exact k.pins.trans h.pins
    | exact k.irqPending.trans h.irqPending | exact k.mlState.trans h.mlState | exact k.mlFlag.trans h.mlFlag
    | exact k.axState.trans h.axState | exact k.axEvent.trans h.axEvent | exact k.axConfirm.trans h.axConfirm
    | exact k.axHoldTs.trans h.axHoldTs | exact k.scPhaseA.trans h.scPhaseA | exact k.scPhaseB.trans h.scPhaseB
    | exact k.scDir.trans h.scDir | exact k.scSpeed.trans h.scSpeed | exact k.scStopped.trans h.scStopped
    | exact k.scEvent.trans h.scEvent | exact k.shutdownReq.trans h.shutdownReq | exact k.runButton.trans h.runButton
    | exact k.runScroll.trans h.runScroll | exact k.buttonK.trans h.buttonK | exact k.buttonSleep.trans h.buttonSleep
    | exact k.scrollK.trans h.scrollK | exact k.scrollSleep.trans h.scrollSleep | exact k.interludes.trans h.interludes
    | exact k.ret.trans h.ret | exact k.agenda.trans h.agenda | exact k.pos.trans h.pos | exact k.ended.trans h.ended

/-- A state that differs only in fields of the sensor task, with observations only added to. -/
theorem sensorMoved_of {s t : State}
    (h : t = { s with
      power := t.power, ncs := t.ncs, nreset := t.nreset, busLast := t.busLast, busLastEnd := t.busLastEnd
      busCorrupt := t.busCorrupt, drvState := t.drvState, degraded := t.degraded, mode := t.mode, diag := t.diag
      rb := t.rb, rbW := t.rbW, rbR := t.rbR, ovfCount := t.ovfCount, seqPc := t.seqPc, loopStart := t.loopStart
      runSensor := t.runSensor, sensorPos := t.sensorPos, oracle := t.oracle, writeOracle := t.writeOracle
      slacks := t.slacks, reports := t.reports, events := t.events, wire := t.wire })
    (hr : ∃ l, t.reports = s.reports ++ l) (he : ∃ l, t.events = s.events ++ l) (hw : ∃ l, t.wire = s.wire ++ l) :
    SensorMoved s t := by
  constructor
  case reports => exact hr
  case events => exact he
  case wire => exact hw
  all_goals rw [h]

/-- As `sensorMoved_of`, with the same observations. -/
theorem sensorMoved_quiet {s t : State}
    (h : t = { s with
      power := t.power, ncs := t.ncs, nreset := t.nreset, busLast := t.busLast, busLastEnd := t.busLastEnd
      busCorrupt := t.busCorrupt, drvState := t.drvState, degraded := t.degraded, mode := t.mode, diag := t.diag
      rb := t.rb, rbW := t.rbW, rbR := t.rbR, ovfCount := t.ovfCount, seqPc := t.seqPc, loopStart := t.loopStart
      runSensor := t.runSensor, sensorPos := t.sensorPos, oracle := t.oracle, writeOracle := t.writeOracle
      slacks := t.slacks }) : SensorMoved s t := by
  rw [h]
  constructor <;> first | rfl | exact ⟨[], (List.append_nil _).symm⟩

theorem sensorMoved_goTo (p : SensorPos) (s : State) : SensorMoved s (goTo p s) := sensorMoved_quiet rfl

theorem sensorMoved_endWait (t0 : Time) (T : Nat) (p : SensorPos) (s : State) : SensorMoved s (endWait t0 T p s) := by
  rcases endWait_cases t0 T p s with h | ⟨_, h⟩ <;> rw [h]
  · exact sensorMoved_refl s
  · exact sensorMoved_quiet rfl

theorem sensorMoved_endBusWait (t0 : Time) (T : Nat) (p : SensorPos) (s : State) :
    SensorMoved s (endBusWait t0 T p s) := by
  rcases endBusWait_cases t0 T p s with h | h <;> rw [h]
  · exact sensorMoved_refl s
  · exact sensorMoved_quiet rfl

theorem sensorMoved_openCall {c : BusCall} {s t : State} (h : openCall c s = .ok t) : SensorMoved s t := by
  rw [(openCall_ok h).1]
  exact sensorMoved_goTo _ s

theorem sensorMoved_nextWrite {sc : ScriptId} {s t : State} (h : nextWrite sc s = .ok t) : SensorMoved s t := by
  rcases nextWrite_ok h with ⟨_, _, h⟩ | h <;> rw [h] <;> exact sensorMoved_goTo _ s

theorem sensorMoved_nextDiag {s t : State} (h : nextDiag s = .ok t) : SensorMoved s t := by
  rcases nextDiag_ok h with ⟨_, h⟩ | h <;> rw [h] <;> exact sensorMoved_goTo _ s

theorem sensorMoved_raise (e : Event) (s : State) : SensorMoved s (raiseEvent e s) :=
  sensorMoved_of rfl ⟨[], (List.append_nil _).symm⟩ ⟨[e], rfl⟩ ⟨[], (List.append_nil _).symm⟩

theorem sensorMoved_emit (r : Report) (s : State) : SensorMoved s (emitReport r s) :=
  sensorMoved_of rfl ⟨[r], rfl⟩ ⟨[], (List.append_nil _).symm⟩ ⟨[], (List.append_nil _).symm⟩

theorem sensorMoved_setNcs (l : Level) (s : State) : SensorMoved s (setNcs l s) :=
  sensorMoved_of rfl ⟨[], (List.append_nil _).symm⟩ ⟨[], (List.append_nil _).symm⟩ ⟨[.ncs l s.now], rfl⟩

theorem sensorMoved_nextPoll (s : State) : SensorMoved s (nextPoll s) := by
  simp only [nextPoll]
  split
  · exact sensorMoved_goTo _ s
  · exact sensorMoved_of rfl ⟨[], (List.append_nil _).symm⟩ ⟨[_], rfl⟩ ⟨[], (List.append_nil _).symm⟩

theorem sensorMoved_failCall (sc : Option ScriptId) (s : State) : SensorMoved s (failCall sc s) :=
  sensorMoved_of rfl ⟨[], (List.append_nil _).symm⟩ ⟨[_], rfl⟩ ⟨[], (List.append_nil _).symm⟩

theorem sensorMoved_sendCall (c : BusCall) (ts : Time) (s : State) : SensorMoved s (sendCall c ts s) := by
  cases c <;>
    exact sensorMoved_of rfl ⟨[], (List.append_nil _).symm⟩ ⟨[], (List.append_nil _).symm⟩ ⟨_, rfl⟩

theorem sensorMoved_askByte {s t : State} {r : Answer Byte} (h : askByte s = .ok (r, t)) : SensorMoved s t := by
  simp only [askByte] at h
  split at h <;> simp [refuse] at h <;> obtain ⟨_, h⟩ := h <;> subst h
  · exact sensorMoved_of rfl ⟨[], (List.append_nil _).symm⟩ ⟨[], (List.append_nil _).symm⟩ ⟨[_], rfl⟩
  · exact sensorMoved_quiet rfl

theorem sensorMoved_askBurst {s t : State} {r : Answer (List Byte)} (h : askBurst s = .ok (r, t)) : SensorMoved s t := by
  simp only [askBurst] at h
  split at h
  · simp [refuse] at h
  · split at h <;> simp [refuse] at h
    obtain ⟨_, h⟩ := h
    subst h
    exact sensorMoved_of rfl ⟨[], (List.append_nil _).symm⟩ ⟨[], (List.append_nil _).symm⟩ ⟨[_], rfl⟩
  · simp at h
    obtain ⟨_, h⟩ := h
    subst h
    exact sensorMoved_quiet rfl
  · simp [refuse] at h

theorem sensorMoved_answerCall {c : BusCall} {ts : Time} {s t : State} (h : answerCall c ts s = .ok t) :
    SensorMoved s t := by
  cases c with
  | entry sc a v => cases h; exact sensorMoved_quiet rfl
  | capture =>
    simp only [answerCall] at h
    split at h
    · simp at h
    · rename_i q; cases h; exact sensorMoved_trans (sensorMoved_askBurst q) (sensorMoved_goTo _ _)
  | verify | diag =>
    simp only [answerCall] at h
    split at h
    · simp at h
    · rename_i q; cases h; exact sensorMoved_trans (sensorMoved_askByte q) (sensorMoved_goTo _ _)
    · rename_i q; cases h; exact sensorMoved_trans (sensorMoved_askByte q) (sensorMoved_goTo _ _)

theorem sensorMoved_afterCall {c : BusCall} {ts : Time} {r : Answer (List Byte)} {s t : State}
    (h : afterCall c ts r s = .ok t) : SensorMoved s t := by
  cases c <;> cases r
  case entry.ok => exact sensorMoved_trans (sensorMoved_quiet (t := nextEntry s) rfl) (sensorMoved_nextWrite h)
  case entry.fault => cases h; exact sensorMoved_failCall _ s
  case verify.ok =>
    simp only [afterCall] at h
    split at h
    · cases h; exact sensorMoved_quiet rfl
    · cases h; exact sensorMoved_trans (sensorMoved_quiet (t := nextAttempt s) rfl) (sensorMoved_nextPoll _)
  case verify.fault =>
    cases h; exact sensorMoved_trans (sensorMoved_quiet (t := nextAttempt s) rfl) (sensorMoved_failCall _ _)
  case diag.ok => exact sensorMoved_trans (sensorMoved_quiet (t := nextEntry (storeDiag _ s)) rfl) (sensorMoved_nextDiag h)
  case diag.fault => cases h; exact sensorMoved_failCall _ s
  case capture.ok =>
    simp only [afterCall] at h
    split at h <;> cases h <;> exact sensorMoved_goTo _ s
  case capture.fault => cases h; exact sensorMoved_trans (sensorMoved_raise _ s) (sensorMoved_goTo _ _)

theorem sensorMoved_callStep {c : BusCall} {ph : BusPhase} {s t : State} (h : callStep c ph s = .ok t) :
    SensorMoved s t := by
  cases ph with
  | gap t0 => cases h; exact sensorMoved_endBusWait _ _ _ s
  | assert => cases h; exact sensorMoved_trans (sensorMoved_setNcs _ s) (sensorMoved_goTo _ _)
  | settle ts => cases h; exact sensorMoved_endBusWait _ _ _ s
  | send ts => cases h; exact sensorMoved_sendCall c ts s
  | delay ts t0 => cases h; exact sensorMoved_endBusWait _ _ _ s
  | answer ts => exact sensorMoved_answerCall h
  | release ts r =>
    cases h
    exact sensorMoved_of rfl ⟨[], (List.append_nil _).symm⟩ ⟨[], (List.append_nil _).symm⟩ ⟨[.ncs true s.now], rfl⟩
  | returned ts r => exact sensorMoved_afterCall h

theorem sensorMoved_emitStep (rx ry : Int) (s : State) : SensorMoved s (emitStep rx ry s) :=
  sensorMoved_trans (sensorMoved_emit _ s) (sensorMoved_goTo _ _)

theorem sensorMoved_drainStep {s t : State} (h : drainStep s = .ok t) : SensorMoved s t := by
  simp only [drainStep] at h
  split at h
  · cases h; exact sensorMoved_goTo _ s
  · split at h
    · simp at h
    · cases h; exact sensorMoved_emitStep _ _ s

theorem sensorMoved_writeSlot {i : Nat} {x : Sample} {s t : State} (h : writeSlot i x s = .ok t) : SensorMoved s t := by
  simp only [writeSlot] at h
  split at h
  · cases h; exact sensorMoved_quiet rfl
  · simp at h

theorem sensorMoved_mergeOldest {s t : State} (h : mergeOldest s = .ok t) : SensorMoved s t := by
  simp only [mergeOldest] at h
  split at h
  · split at h
    · rename_i w
      cases h
      exact sensorMoved_trans (sensorMoved_writeSlot w) <|
        sensorMoved_of rfl ⟨[], (List.append_nil _).symm⟩ ⟨[_], rfl⟩ ⟨[], (List.append_nil _).symm⟩
    · simp at h
  · simp at h
  · simp at h

theorem sensorMoved_pushSample {x : Sample} {s t : State} (h : pushSample x s = .ok t) : SensorMoved s t := by
  simp only [pushSample] at h
  split at h
  · simp at h
  · rename_i w
    split at h
    · split at h
      · simp at h
      · rename_i m
        cases h
        exact sensorMoved_trans (sensorMoved_writeSlot w) <|
          sensorMoved_trans (sensorMoved_mergeOldest m) (sensorMoved_quiet rfl)
    · cases h
      exact sensorMoved_trans (sensorMoved_writeSlot w) (sensorMoved_quiet rfl)

theorem sensorMoved_pushStep {x : Sample} {s t : State} (h : pushStep x s = .ok t) : SensorMoved s t := by
  simp only [pushStep] at h
  split at h
  · simp at h
  · rename_i p; cases h; exact sensorMoved_trans (sensorMoved_pushSample p) (sensorMoved_goTo _ _)

theorem sensorMoved_pulseEndStep (s : State) : SensorMoved s (pulseEndStep s) := by
  simp only [pulseEndStep]
  split
  · exact sensorMoved_quiet rfl
  · exact sensorMoved_trans (sensorMoved_setNcs _ s) (sensorMoved_goTo _ _)

theorem sensorMoved_leaveStep (s : State) : SensorMoved s (leaveStep s) := by
  simp only [leaveStep]
  split <;> exact sensorMoved_quiet rfl

theorem sensorMoved_beginStep {s t : State} (h : beginStep s = .ok t) : SensorMoved s t := by
  simp only [beginStep] at h
  split at h <;>
    first
    | exact sensorMoved_nextWrite h
    | exact sensorMoved_nextDiag h
    | (cases h; exact sensorMoved_nextPoll s)
    | (cases h; exact sensorMoved_trans (sensorMoved_setNcs _ s) (sensorMoved_goTo _ _))
    | (cases h; exact sensorMoved_quiet rfl)
    | simp [refuse] at h

theorem sensorMoved_sleepBoundary (s : State) : SensorMoved s (sleepBoundary .sensor s) := by
  simp only [sleepBoundary]
  split
  · exact sensorMoved_quiet rfl
  · exact sensorMoved_refl s

/-- All a rule step of the sensor task can do to what is not its own: it takes no time, and only adds to the observations. -/
theorem sensorMoved_sensorStep {s t : State} (h : sensorStep s = .ok t) : SensorMoved s t := by
  simp only [sensorStep] at h
  split at h
  · simp [refuse] at h
  · split at h
    case h_1 => exact sensorMoved_beginStep h
    case h_2 => cases h; exact sensorMoved_endWait _ _ _ s
    case h_3 => cases h; exact sensorMoved_pulseEndStep s
    case h_4 => cases h; exact sensorMoved_leaveStep s
    case h_5 => cases h; exact sensorMoved_quiet rfl
    case h_6 =>
      split at h
      · cases h; exact sensorMoved_refl s
      · exact sensorMoved_trans (sensorMoved_quiet (t := dropSlack s) rfl) (sensorMoved_openCall h)
    case h_7 => exact sensorMoved_callStep h
    case h_8 => exact sensorMoved_drainStep h
    case h_9 => cases h; exact sensorMoved_emitStep _ _ s
    case h_10 => cases h; exact sensorMoved_quiet rfl
    case h_11 =>
      split at h
      · exact sensorMoved_openCall h
      · cases h; exact sensorMoved_goTo _ s
    case h_12 => exact sensorMoved_pushStep h
    case h_13 => cases h; exact sensorMoved_goTo _ s
    case h_14 => cases h; exact sensorMoved_endWait _ _ _ s
    case h_15 => cases h; exact sensorMoved_trans (sensorMoved_sleepBoundary s) (sensorMoved_goTo _ _)

end Sys2Proof.Machine
end

