-- ==== Sys2Proof/Laws/Units.lean ====
section
/-! SUPPORT. The calls of the button and scroll tasks under any schedule: they leave everything alone that belongs to the
sensor task (10_state.md R171, R172). -/

namespace Sys2Proof.Machine

theorem othersActed_reportButtons (s : State) : OthersActed s (reportButtons s) := othersActed_emit _ s

theorem othersActed_speedAdjust (ev : Bool) (s : State) : OthersActed s (speedAdjust ev s) :=
  othersActed_quiet rfl

theorem othersActed_latchPoll (b : MainButton) (s : State) : OthersActed s (latchPoll b s) := by
  simp only [latchPoll]
  split
  · exact othersActed_trans (othersActed_latchTake b s) <| othersActed_trans (othersActed_yield _ _) <|
      othersActed_trans (othersActed_reportButtons _) <| othersActed_trans (othersActed_yield _ _)
        (othersActed_latchRelease b _)
  · exact othersActed_latchTake b s

theorem othersActed_auxTake (a : AuxButton) (s : State) : OthersActed s (auxTake a s).2 := by
  constructor <;> first | rfl | exact ⟨[], (List.append_nil _).symm⟩

theorem othersActed_auxPoll (a : AuxButton) (s : State) : OthersActed s (auxPoll a s) := by
  simp only [auxPoll]
  split
  · exact othersActed_trans (othersActed_auxTake a s) <| othersActed_trans (othersActed_yield _ _)
      (othersActed_reportButtons _)
  · exact othersActed_auxTake a s

theorem othersActed_buttonCall (st : ButtonStep) (s : State) : OthersActed s (buttonCall st s) := by
  cases st with
  | confirm a => exact othersActed_auxConfirm a s
  | latchTake b => exact othersActed_latchPoll b s
  | latchReport b => exact othersActed_reportButtons s
  | latchRelease b => exact othersActed_latchRelease b s
  | auxTake a => exact othersActed_auxPoll a s
  | auxReport a => exact othersActed_reportButtons s

theorem othersActed_buttonCalls (sts : List ButtonStep) (s : State) : OthersActed s (buttonCalls sts s) := by
  induction sts generalizing s with
  | nil => exact othersActed_refl s
  | cons st sts ih =>
    exact othersActed_trans (othersActed_trans (othersActed_buttonCall st s) (othersActed_yield _ _)) (ih _)

theorem othersActed_scrollFinish (ev : Bool) (d : ScrollDir) (s : State) : OthersActed s (scrollFinish ev d s) := by
  have k := othersActed_trans (othersActed_yield .scroll s) (othersActed_speedAdjust ev _)
  simp only [scrollFinish]
  split
  · exact othersActed_trans k (othersActed_trans (othersActed_yield _ _) (othersActed_emit _ _))
  · exact k

theorem othersActed_scrollPoll (s : State) : OthersActed s (scrollPoll s) :=
  othersActed_trans (t := (scrollTake s).2.2)
    (by constructor <;> first | rfl | exact ⟨[], (List.append_nil _).symm⟩) (othersActed_scrollFinish _ _ _)

theorem othersActed_scrollCall (st : ScrollStep) (s : State) : OthersActed s (scrollCall st s) := by
  cases st with
  | take => exact othersActed_scrollPoll s
  | adjust ev d => exact othersActed_scrollFinish ev d s
  | report d => exact othersActed_emit _ s

theorem othersActed_scrollCalls (sts : List ScrollStep) (s : State) : OthersActed s (scrollCalls sts s) := by
  induction sts generalizing s with
  | nil => exact othersActed_refl s
  | cons st sts ih => exact othersActed_trans (othersActed_scrollCall st s) (ih _)

end Sys2Proof.Machine
end

