-- ==== Sys2Proof/Machine/Assembler.lean ====
section
/-! DEFINITION. The assembler syntax of stimulus programs and scripts (30_encoding.md R344, R345), on the characters of one
line. -/

namespace Sys2Proof.Machine

/-- The value of a digit, up to 15. -/
def digitValue (c : Char) : Option Nat :=
  let n := c.toNat
  if 48 ≤ n ∧ n ≤ 57 then some (n - 48)
  else if 97 ≤ n ∧ n ≤ 102 then some (n - 87)
  else if 65 ≤ n ∧ n ≤ 70 then some (n - 55)
  else none

/-- The number of some digits in a base, after `acc`. -/
def digitsFrom (base acc : Nat) : List Char → Option Nat
  | [] => some acc
  | c :: cs =>
    match digitValue c with
    | some d => if d < base then digitsFrom base (acc * base + d) cs else none
    | none => none

/-- At least one digit. -/
def digits (base : Nat) (cs : List Char) : Option Nat := if cs = [] then none else digitsFrom base 0 cs

/-- A number: decimal, or hexadecimal after `0x`. -/
def parseNat : List Char → Option Nat
  | '0' :: 'x' :: cs => digits 16 cs
  | cs => digits 10 cs

/-- A number with an optional minus sign, for `PUSHT`. -/
def parseInt : List Char → Option Int
  | '-' :: cs => (parseNat cs).map fun n => -(n : Int)
  | cs => (parseNat cs).map fun n => (n : Int)

/-- A pin: its name or its number. -/
def parsePin (cs : List Char) : Option Pin :=
  if cs = "L_NO".toList then some .lNo
  else if cs = "L_NC".toList then some .lNc
  else if cs = "R_NO".toList then some .rNo
  else if cs = "R_NC".toList then some .rNc
  else if cs = "M".toList then some .m
  else if cs = "S4".toList then some .s4
  else if cs = "S5".toList then some .s5
  else if cs = "SCR_A".toList then some .scrA
  else if cs = "SCR_B".toList then some .scrB
  else (parseNat cs).bind pinOfNat

/-- A number in a range, as bits. -/
def parseBits (w lo hi : Nat) (cs : List Char) : Option (BitVec w) :=
  (parseNat cs).bind fun n => if lo ≤ n ∧ n ≤ hi then some (BitVec.ofNat w n) else none

/-- A delta of `PUSHT`: -32..31. -/
def parseDelta (cs : List Char) : Option (BitVec 6) :=
  (parseInt cs).bind fun n => if -32 ≤ n ∧ n ≤ 31 then some (BitVec.ofInt 6 n) else none

/-- A line without its comment. -/
def beforeComment (line : List Char) : List Char := line.takeWhile (· != ';')

/-- Characters without the spaces around them. -/
def trimSpaces (cs : List Char) : List Char := ((cs.dropWhile (· == ' ')).reverse.dropWhile (· == ' ')).reverse

/-- The operands of a line, separated by commas; none for an empty text. -/
def operands (cs : List Char) : List (List Char) :=
  if trimSpaces cs = [] then [] else (cs.splitOn ',').map trimSpaces

/-- The stimulus of a mnemonic and its operands (R344). -/
def assembleParts (mnemonic : List Char) (args : List (List Char)) : Option Instr :=
  match args with
  | [] =>
    if mnemonic = "END".toList then some .endProgram
    else if mnemonic = "BTASK".toList then some .btask
    else if mnemonic = "STASK".toList then some .stask
    else if mnemonic = "SCYCLE".toList then some .scycle
    else if mnemonic = "INIT".toList then some .initStim
    else if mnemonic = "SHUT".toList then some .shut
    else if mnemonic = "DRAINT".toList then some .draint
    else none
  | [x] =>
    if mnemonic = "ISR".toList then (parsePin x).map .isr
    else if mnemonic = "TICK".toList then (parseBits 12 1 4095 x).map .tick
    else if mnemonic = "MODE".toList then (parseBits 2 0 3 x).map fun m => .mode (opModeOfBits m)
    else if mnemonic = "TICKMS".toList then (parseNat x).map .tickms
    else none
  | [x, y] =>
    if mnemonic = "PIN".toList then
      (parsePin x).bind fun p => (parseBits 1 0 1 y).map fun l => .pin p (l.getLsbD 0)
    else if mnemonic = "PUSHT".toList then
      (parseDelta x).bind fun dx => (parseDelta y).map fun dy => .pusht dx dy
    else none
  | _ => none

/-- The codes of one line of a stimulus program: none for an empty line or a comment, several for `TICKMS` (R344). -/
def assembleLine (line : List Char) : Option (List Code) :=
  let text := trimSpaces (beforeComment line)
  if text = [] then some []
  else (assembleParts (text.takeWhile (· != ' ')) (operands (text.dropWhile (· != ' ')))).map encode

/-- The stored word of one line of a script, `W addr, value`, both in hexadecimal (R345, R307). A comment is
cut off as in a stimulus program, and an empty line is no entry (DESIGN CHOICE, log 34). -/
def assembleScriptLine (line : List Char) : Option (BitVec 16) :=
  let text := trimSpaces (beforeComment line)
  if text.takeWhile (· != ' ') = ['W'] then
    match operands (text.dropWhile (· != ' ')) with
    | [x, y] =>
      match digits 16 x, digits 16 y with
      | some a, some v =>
        if a ≤ 127 ∧ v ≤ 255 then some ((1#1 ++ BitVec.ofNat 7 a) ++ BitVec.ofNat 8 v) else none
      | _, _ => none
    | _ => none
  else none

end Sys2Proof.Machine
end

