-- ==== Sys2Proof/Tests/Slice0.lean ====
section
/-! SUPPORT. Tests of the model: the WellFormed smoke, decoding of words written out from the spec's encodings, single steps
checked against 95_test_vectors.md or worked by hand from the rules, and witnesses that the hypotheses of the statements can
be met. -/

namespace Sys2Proof.Tests

open Sys2Proof.Machine Sys2Proof.Safety

/-- The test parameter set TP (95_test_vectors.md, section 0). -/
def tp : Params where
  rbN := 24
  verifyAddr := 0x01
  burstAddr := 0x20
  diagAddr := [0x30, 0x31, 0x32, 0x33, 0x34]
  seqFirst := [0x9001, 0x9102]
  seqRepair := [0x9203, 0x9304, 0x9405]
  seqClose := [0x9506]
  modeTable0 := [0xC000]
  modeTable1 := [0xC100]
  modeTable2 := [0xC2A5, 0xC35A]
  modeTable3 := [0xC400]
  resetMode := .highPerformance
  tWake := 50
  tNcsPulse := 1
  tResetPulse := 1
  tResetSettle := 50
  tSww := 10
  tSwr := 20
  tSrad := 2
  tSrx := 1
  tNcsSclk := 1
  tSradMotbr := 2
  tBexit := 1
  tMotionValid := 10
  mainPressLevel := ⟨false, false⟩
  auxPressLevel := ⟨false, false, false⟩
  speedMax := 3
  pause := 1
  scrollEdge := .rising

/-- Reset under TP. -/
def s0 : State := State.resetWith tp

/-- The driver at a sequencer step and in a driver state, powered. -/
def placed (st : SeqStep) (d : DrvState) : State := { s0 with power := true, seqPc := ⟨st, 0, 0⟩, drvState := d }

/-- The driver in STREAMING with answers to come. -/
def streaming (answers : List ReadAnswer) : State := { placed .stream .streaming with oracle := answers }

/-- A part of the next state, if there is one. -/
def got {α : Type} (f : State → α) : Host.Outcome State Fault Refusal → Option α
  | .next t => some (f t)
  | .fault _ => none
  | .refused _ => none

/-- The reason of a refusal, if it is one. -/
def refusal : Host.Outcome State Fault Refusal → Option Refusal
  | .next _ => none
  | .fault _ => none
  | .refused r => some r

/-- The reason of a fault, if it is one. -/
def faulted : Host.Outcome State Fault Refusal → Option Fault
  | .next _ => none
  | .fault f => some f
  | .refused _ => none

/-- The instruction some bits decode to, if any. -/
def decoded (c : Code) : Option Instr := (decode tp.burstAddr c).toOption

/-- Why some bits are no instruction, if they are none. -/
def undecoded (c : Code) : Option DecodeError :=
  match decode tp.burstAddr c with
  | .ok _ => none
  | .error e => some e

/-! ### WellFormed: an ill-formed term for each check -/

theorem test_tp_well_formed : tp.refusal = none := by decide
theorem test_ring_too_small : ({ tp with rbN := 1 } : Params).refusal = some .ringSize := by decide
theorem test_ring_too_large : ({ tp with rbN := 257 } : Params).refusal = some .ringSize := by decide
theorem test_ring_bounds_allowed :
    ({ tp with rbN := 2 } : Params).refusal = none ∧ ({ tp with rbN := 256 } : Params).refusal = none := by decide
theorem test_diag_count : ({ tp with diagAddr := [0x30] } : Params).refusal = some .diagCount := by decide
theorem test_repair_length : ({ tp with seqRepair := [0x9203] } : Params).refusal = some .scriptLength := by decide
theorem test_close_empty : ({ tp with seqClose := [] } : Params).refusal = some .scriptLength := by decide
theorem test_first_not_longer : ({ tp with seqFirst := [0x9001] } : Params).refusal = some .scriptLength := by decide
theorem test_script_word : ({ tp with modeTable3 := [0x4400] } : Params).refusal = some .notAScriptEntry := by decide
theorem test_speed_zero : ({ tp with speedMax := 0 } : Params).refusal = some .speedMax := by decide
theorem test_speed_high : ({ tp with speedMax := 128 } : Params).refusal = some .speedMax := by decide
theorem test_verify_is_burst : ({ tp with verifyAddr := 0x20 } : Params).refusal = some .readsBurstAddr := by decide
theorem test_diag_is_burst :
    ({ tp with diagAddr := [0x30, 0x31, 0x20, 0x33, 0x34] } : Params).refusal = some .readsBurstAddr := by decide
theorem test_address_range : (addrOfNat 127).toOption = some 0x7F ∧ (addrOfNat 128).toOption = none := by decide
theorem test_read_of_burst_ill_formed : (Instr.tRead 0x20).wellFormed tp = false := by decide
theorem test_burst_elsewhere_ill_formed : (Instr.tBurst 0x21).wellFormed tp = false := by decide
theorem test_busRead_ill_formed : (Instr.busRead 0x20).wellFormed tp = false := by decide
theorem test_busBurst_ill_formed :
    (Instr.busBurst 0x20 11).wellFormed tp = false ∧ (Instr.busBurst 0x21 12).wellFormed tp = false := by decide
theorem test_tick_zero_ill_formed : (Instr.tick 0).wellFormed tp = false := by decide
theorem test_raise_ill_formed :
    (Instr.raise (.verifyTimeout 59)).wellFormed tp = false ∧ (Instr.raise (.rbOverflow 24)).wellFormed tp = false ∧
    (Instr.raise (.transportFaultInit ⟨.wake, 0, 0⟩)).wellFormed tp = false := by decide
theorem test_emit_ill_formed :
    (Instr.emit ⟨0x20, 0, 0, 0, 0⟩).wellFormed tp = false ∧ (Instr.emit ⟨0, 0x80, 0, 0, 0⟩).wellFormed tp = false ∧
    (Instr.emit ⟨0, 0, 0x80, 0, 0⟩).wellFormed tp = false ∧ (Instr.emit ⟨0, 0, 0, 0, 1⟩).wellFormed tp = false := by decide

/-! ### Decoding: words written out from the encodings of 30_encoding.md (R300 to R307, R341) -/

/-- 1 0010000, 01010101 (V-B1). -/
theorem test_decode_t_write : decoded (.bus [0b10010000, 0b01010101]) = some (.tWrite 0x10 0x55) := by decide
/-- 0 1111111 (V-B5). -/
theorem test_decode_t_read : decoded (.bus [0b01111111]) = some (.tRead 0x7F) := by decide
/-- 0 0100000, the burst address of TP (V-B8). -/
theorem test_decode_t_burst : decoded (.bus [0b00100000]) = some (.tBurst 0x20) := by decide
/-- 1 0010100 00000101: `W 14, 05`. -/
theorem test_decode_script : decoded (.script 0b1001010000000101) = some (.script 0x14 0x05) := by decide
/-- 0000 000000000000. -/
theorem test_decode_end : decoded (.stim 0b0000000000000000) = some .endProgram := by decide
/-- 0001 0001 0000000 1 (V-W3). -/
theorem test_decode_pin : decoded (.stim 0b0001000100000001) = some (.pin .lNc true) := by decide
/-- 0010 1000 00000000 (V-W6). -/
theorem test_decode_isr : decoded (.stim 0b0010100000000000) = some (.isr .scrB) := by decide
/-- 0011 111111111111 (V-W10). -/
theorem test_decode_tick : decoded (.stim 0b0011111111111111) = some (.tick 4095) := by decide
theorem test_decode_btask : decoded (.stim 0b0100000000000000) = some .btask := by decide
theorem test_decode_stask : decoded (.stim 0b0101000000000000) = some .stask := by decide
theorem test_decode_scycle : decoded (.stim 0b0110000000000000) = some .scycle := by decide
theorem test_decode_init : decoded (.stim 0b0111000000000000) = some .initStim := by decide
/-- 1000 0000000000 11 (V-W12). -/
theorem test_decode_mode : decoded (.stim 0b1000000000000011) = some (.mode .cordedGaming) := by decide
theorem test_decode_shut : decoded (.stim 0b1001000000000000) = some .shut := by decide
/-- 1010 011111 111111: `PUSHT 31, -1` (V-W14). -/
theorem test_decode_pusht : decoded (.stim 0b1010011111111111) = some (.pusht 31 (-1)) := by decide
theorem test_decode_draint : decoded (.stim 0b1011000000000000) = some .draint := by decide
/-- 11 01010110100101 (V-W18). -/
theorem test_decode_reserved : decoded (.stim 0b1101010110100101) = some (.reserved 0b01010110100101) := by decide
/-- `TICKMS 2` is two words 0011 001111101000 (R344). -/
theorem test_encode_tickms : encode (.tickms 2) = [.stim 0b0011001111101000, .stim 0b0011001111101000] := by decide
/-- Every pin number 0..8, and no other (R342). -/
theorem test_decode_pins :
    (List.range 16).map pinOfNat =
      [some .lNo, some .lNc, some .rNo, some .rNc, some .m, some .s4, some .s5, some .scrA, some .scrB,
        none, none, none, none, none, none, none] := by decide

/-- Nonzero reserved fields (V-W2, V-W4, V-W7, V-W11, V-W12). -/
theorem test_illegal_fields :
    [0x0001, 0x1102, 0x2801, 0x4001, 0x5800, 0x6001, 0x7100, 0x8004, 0x9001, 0xB010].map (fun w => undecoded (.stim w)) =
      List.replicate 10 (some .reservedField) := by decide
/-- Pin 9 and `TICK 0` (V-W5, V-W8). -/
theorem test_illegal_operands :
    undecoded (.stim 0x1901) = some .noSuchPin ∧ undecoded (.stim 0x2900) = some .noSuchPin ∧
    undecoded (.stim 0x3000) = some .zeroTick := by decide
/-- A write without its value, a read with one, no byte, three bytes (R301 to R303, R309); a script word with bit 15 = 0
(R307). -/
theorem test_illegal_bus_and_script :
    [[], [0x90], [0x10, 0x55], [0x90, 0x55, 0x00]].map (fun b => undecoded (.bus b)) = List.replicate 4 (some .badFraming) ∧
    undecoded (.script 0x1405) = some .notAScriptEntry := by decide

/-! ### Assembling (30_encoding.md R344, R345) -/

theorem test_assemble_pin : assembleLine "PIN L_NO, 0 ; press".toList = some [.stim 0x1000] := by decide
theorem test_assemble_pusht : assembleLine "PUSHT 31, -1".toList = some [.stim 0xA7FF] := by decide
theorem test_assemble_script : assembleScriptLine "W 42, A5".toList = some 0xC2A5 := by decide

/-! ### Single steps of the stimulus words (47_stimulus.md) -/

theorem test_end : got (·.ended) (exec .endProgram s0) = some true := by decide
/-- 47_stimulus.md R751, example. -/
theorem test_pin_edge :
    got (fun t => (t.pins.lNo, t.irqPending.lNo)) (exec (.pin .lNo false) { s0 with pins := ⟨true, false, false, false,
      false, false, false, false, false⟩ }) = some (false, true) := by decide
/-- V-S2e: a falling edge of a scroll pin under RISING is no interrupt. -/
theorem test_pin_scroll_falling :
    got (fun t => (t.pins.scrA, t.irqPending.scrA)) (exec (.pin .scrA false) { s0 with pins := ⟨false, false, false, false,
      false, false, false, true, false⟩ }) = some (false, false) := by decide
/-- Program 1, word 4. -/
theorem test_isr_main :
    got (fun t => (t.irqPending.lNo, t.mlState.left, t.mlFlag.left))
      (exec (.isr .lNo) { s0 with
        pins := ⟨false, true, false, false, false, false, false, false, false⟩
        irqPending := ⟨true, false, false, false, false, false, false, false, false⟩ }) = some (false, .down, .set) := by
  decide
/-- V-W19. -/
theorem test_isr_refused : refusal (exec (.isr .lNo) s0) = some (.irqNotPending .lNo) := by decide
theorem test_tick_wraps : got (·.now) (exec (.tick 0x010) { s0 with now := 0xFFFFFFF8 }) = some 0x00000008 := by decide
theorem test_tickms : got (·.now) (exec (.tickms 3) { s0 with now := 5 }) = some 3005 := by decide
/-- V-P4. -/
theorem test_btask_order :
    got (fun t => (t.reports, t.mlFlag.left, t.axEvent.m))
      (exec .btask { s0 with
        mlState := ⟨.down, .up⟩, mlFlag := ⟨.set, .clear⟩, axState := ⟨.down, .up, .up⟩, axEvent := ⟨true, false, false⟩ }) =
      some ([⟨0x05, 0, 0, 0, 0⟩, ⟨0x05, 0, 0, 0, 0⟩], .clear, false) := by decide
theorem test_btask_stopped : refusal (exec .btask { s0 with runButton := false }) = some (.loopStopped .button) := by decide
/-- V-S3, cycle 2. -/
theorem test_stask_event :
    got (fun t => (t.reports, t.scSpeed, t.scEvent))
      (exec .stask { s0 with scSpeed := 2, scEvent := true, scDir := .up }) = some ([⟨0, 0, 0, 3, 0⟩], 3, false) := by decide
/-- V-S3, cycle 4. -/
theorem test_stask_idle :
    got (fun t => (t.reports, t.scSpeed, t.scStopped)) (exec .stask { s0 with scSpeed := 3 }) = some ([], 3, 1) := by decide
/-- Program 3, the first capture: payload of V-C1 in a cycle that began at 1000. -/
theorem test_scycle_pushes :
    got (fun t => (t.rb.headD ⟨0, 0, 0⟩, t.rbW, t.rbR, t.reports, t.now))
      (exec .scycle { streaming [.burst [0x80, 0, 1, 0, 0xFF, 0xFF, 0, 0, 0, 0, 0, 0]] with now := 1000 }) =
      some (⟨1, -1, 1000⟩, 1, 0, [], 1003) := by decide
/-- No cycle falls inside a bring-up (R706). -/
theorem test_scycle_in_bring_up : refusal (exec .scycle (placed .wake .resetting)) = some .sensorBusy := by decide
/-- V-V5 as a whole bring-up: two script writes, five reads, the fifth faults. -/
theorem test_init_fault :
    got (fun t => (t.drvState, t.seqPc, t.events))
      (exec .initStim { s0 with oracle := [.byte 0, .byte 0, .byte 0, .byte 0, .fault] }) =
      some (.failed, ⟨.fail, 0, 5⟩, [.transportFaultInit ⟨.verify, 0, 5⟩]) := by decide
/-- V-V9. -/
theorem test_init_refused : refusal (exec .initStim (streaming [])) = some .notUnpowered := by decide
/-- V-M1. -/
theorem test_mode :
    got (fun t => (t.mode, t.seqPc.step, sentBytes t.wire)) (exec (.mode .office) (streaming [])) =
      some (.office, .stream, [0xC2, 0xA5, 0xC3, 0x5A]) := by decide
/-- V-M3. -/
theorem test_mode_refused : refusal (exec (.mode .lowPower) (placed .diag .degraded)) = some .notStreaming := by decide
theorem test_shut :
    got (fun t => (t.shutdownReq, t.runSensor, t.runButton, t.runScroll)) (exec .shut s0) =
      some (true, false, false, false) := by decide
/-- A bring-up in progress is not interrupted (R730). -/
theorem test_shut_in_bring_up :
    got (fun t => (t.shutdownReq, t.runSensor)) (exec .shut (placed .wake .resetting)) = some (true, true) := by decide
/-- `PUSHT -32, 31`: sign extension (R760). -/
theorem test_pusht :
    got (fun t => (t.rb.headD ⟨0, 0, 0⟩, t.rbW)) (exec (.pusht 0b100000 0b011111) { s0 with now := 7 }) =
      some (⟨-32, 31, 7⟩, 1) := by decide
/-- V-R7. -/
theorem test_draint_wraps :
    got (fun t => (t.reports.map (·.dx), t.rbR))
      (exec .draint { s0 with
        rbR := 22, rbW := 1, rb := ⟨3, 0, 0⟩ :: (List.replicate 21 ⟨9, 0, 0⟩ ++ [⟨1, 0, 0⟩, ⟨2, 0, 0⟩]) }) =
      some ([1, 2, 3], 1) := by decide
theorem test_reserved : refusal (exec (.reserved 0x1234) s0) = some .reservedClass := by decide

/-! ### The register bus (40_register_bus.md) -/

/-- V-B1 and V-T1: the bytes, and the gap after a write that ended at 1000. -/
theorem test_bus_write :
    got (fun t => (t.wire, t.busLast))
      (exec (.busWrite 0x10 0x55) { placed .first .programming with busLast := .write, busLastEnd := 1000, now := 1000 }) =
      some ([.ncs false 1020, .sent 0x90, .sent 0x55, .ncs true 1021], .write) := by decide
/-- V-T6: a gap of 19. -/
theorem test_bus_write_corrupt :
    got (·.busCorrupt)
      (exec (.busWrite 0x10 0x55) { placed .first .programming with
        busLast := .write, busLastEnd := 1000, now := 1000, slacks := [-1] }) = some true := by decide
/-- V-B4 and V-T3. -/
theorem test_bus_read :
    got (fun t => (t.wire, t.ret, t.busLast))
      (exec (.busRead 0x02) { placed .verify .programming with
        busLast := .read, busLastEnd := 1000, now := 1000, oracle := [.byte 0x3C] }) =
      some ([.ncs false 1001, .sent 0x02, .received [0x3C], .ncs true 1004], .read (.ok 0x3C), .read) := by decide
/-- V-B5. -/
theorem test_bus_read_fault :
    got (fun t => (t.ret, t.ncs, t.busLast)) (exec (.busRead 0x7F) { placed .verify .programming with oracle := [.fault] }) =
      some (.read .fault, true, .read) := by decide
/-- V-B6 and V-T4. -/
theorem test_bus_burst :
    got (fun t => (t.wire, t.busLast))
      (exec (.busBurst 0x20 12) { streaming [.burst [1, 2, 3, 4, 5, 6, 7, 8, 9, 10, 11, 12]] with
        busLast := .burst, busLastEnd := 1000, now := 1000 }) =
      some ([.ncs false 1001, .sent 0x20, .received [1, 2, 3, 4, 5, 6, 7, 8, 9, 10, 11, 12], .ncs true 1004], .burst) := by
  decide
theorem test_bus_burst_wrong_kind :
    refusal (exec (.busBurst 0x20 12) (streaming [.byte 0x80])) = some .oracleWrongKind := by decide
/-- V-T2: a read after a write that ended at 1000. -/
theorem test_t_read_gap :
    got (·.wire)
      (exec (.tRead 0x02) { placed .diag .verified with
        busLast := .write, busLastEnd := 1000, now := 1010, oracle := [.byte 0x11] }) =
      some [.ncs false 1020, .sent 0x02, .received [0x11], .ncs true 1023] := by decide
theorem test_t_write_unpowered : refusal (exec (.tWrite 0x10 0x55) s0) = some .busNotPermitted := by decide
theorem test_t_burst : got (·.ret) (exec (.tBurst 0x20) (streaming [.fault])) = some (.burst .fault) := by decide

/-! ### The bring-up (41_sensor_driver.md) -/

theorem test_init_command :
    got (fun t => (t.drvState, t.seqPc, t.power)) (exec .initCommand s0) = some (.resetting, ⟨.wake, 0, 0⟩, false) := by decide
theorem test_s_wake :
    got (fun t => (t.power, t.now, t.seqPc.step)) (exec .sWake (placed .wake .resetting)) = some (true, 50, .ncsPulse) := by
  decide
theorem test_s_ncs_pulse :
    got (fun t => (t.wire, t.ncs, t.seqPc.step)) (exec .sNcsPulse (placed .ncsPulse .resetting)) =
      some ([.ncs false 0, .ncs true 1], true, .resetPulse) := by decide
theorem test_s_reset_pulse :
    got (fun t => (t.nreset, t.now, t.seqPc.step)) (exec .sResetPulse (placed .resetPulse .resetting)) =
      some (true, 1, .settle) := by decide
theorem test_s_settle :
    got (fun t => (t.busLast, t.drvState, t.now, t.seqPc.step))
      (exec .sSettle { placed .settle .resetting with busLast := .write }) = some (.none, .programming, 50, .first) := by decide
/-- The two words of `SEQ_FIRST`, the second 20 after the end of the first (R425, R457). -/
theorem test_replay_first :
    got (fun t => (t.wire, t.seqPc)) (exec (.replay .first) (placed .first .programming)) =
      some ([.ncs false 0, .sent 0x90, .sent 0x01, .ncs true 1, .ncs false 21, .sent 0x91, .sent 0x02, .ncs true 22],
        ⟨.verify, 0, 0⟩) := by decide
/-- V-V7. -/
theorem test_replay_first_fault :
    got (fun t => (t.seqPc, t.events))
      (exec (.replay .first) { placed .first .programming with writeOracle := [.ok (), .fault] }) =
      some (⟨.fail, 1, 0⟩, [.transportFaultInit ⟨.first, 1, 0⟩]) := by decide
theorem test_script_entry :
    got (fun t => (sentBytes t.wire, t.seqPc)) (exec (.script 0x12 0x03) (placed .repair .programming)) =
      some ([0x92, 0x03], ⟨.repair, 1, 0⟩) := by decide
/-- V-V6. -/
theorem test_s_verify :
    got (fun t => (t.seqPc, t.degraded)) (exec .sVerify { placed .verify .programming with oracle := [.byte 0xC0, .byte 0x80] }) =
      some (⟨.close, 0, 2⟩, false) := by decide
/-- V-V4, from the sixtieth attempt on. -/
theorem test_s_verify_exhausted :
    got (fun t => (t.seqPc, t.degraded, t.events))
      (exec .sVerify { placed .verify .programming with oracle := [.byte 0x81], seqPc := ⟨.verify, 0, 59⟩ }) =
      some (⟨.repair, 0, 60⟩, true, [.verifyTimeout 60]) := by decide
theorem test_s_repair :
    got (fun t => (sentBytes t.wire, t.seqPc.step)) (exec .sRepair (placed .repair .programming)) =
      some ([0x92, 0x03, 0x93, 0x04, 0x94, 0x05], .close) := by decide
theorem test_s_close :
    got (fun t => (t.drvState, t.seqPc.step)) (exec .sClose { placed .close .programming with degraded := true }) =
      some (.degraded, .diag) := by decide
/-- V-V8. -/
theorem test_s_diag_fault :
    got (fun t => (t.diag, t.seqPc, t.events))
      (exec .sDiag { placed .diag .verified with oracle := [.byte 0xA1, .byte 0xA2, .fault] }) =
      some ([0xA1, 0xA2, 0, 0, 0], ⟨.fail, 2, 0⟩, [.transportFaultInit ⟨.diag, 2, 0⟩]) := by decide
/-- The wait runs from the end of the last read: 4 of the 10 have passed (R461). -/
theorem test_s_mvalid :
    got (fun t => (t.now, t.drvState, t.seqPc.step))
      (exec .sMvalid { placed .mvalid .verified with busLast := .read, busLastEnd := 100, now := 104 }) =
      some (110, .streaming, .stream) := by decide
theorem test_fatal_fault :
    got (fun t => (t.drvState, t.seqPc, t.events, t.power))
      (exec .fatalBringupFault { placed .close .programming with seqPc := ⟨.close, 1, 7⟩ }) =
      some (.failed, ⟨.fail, 1, 7⟩, [.transportFaultInit ⟨.close, 1, 7⟩], true) := by decide
/-- V-C3. -/
theorem test_capture_extremes :
    got (·.ret)
      (exec .captureBurst (streaming [.burst [0x01, 0x77, 0x00, 0x80, 0xFF, 0x7F, 0x11, 0x22, 0x33, 0x44, 0x55, 0x66]])) =
      some (.capture (some ⟨-32768, 32767, 0⟩)) := by decide
/-- V-C2. -/
theorem test_capture_no_motion :
    got (·.ret) (exec .captureBurst (streaming [.burst [0, 0, 1, 0, 0xFF, 0xFF, 0, 0, 0, 0, 0, 0]])) =
      some (.capture none) := by decide
/-- V-M2. -/
theorem test_mode_switch_fault :
    got (fun t => (t.drvState, t.mode, t.events))
      (exec (.modeSwitch .office) { streaming [] with writeOracle := [.ok (), .fault] }) =
      some (.failed, .highPerformance, [.transportFaultInit ⟨.mode, 1, 0⟩]) := by decide

/-! ### The ring (42_ring_buffer.md) -/

/-- V-R3. -/
theorem test_push_merges :
    got (fun t => (t.rb.getD 10 ⟨1, 1, 1⟩, t.rb.getD 12 ⟨1, 1, 1⟩, t.rbR, t.rbW, t.events))
      (exec (.push ⟨0, 0, 20⟩) { s0 with
        rbW := 10, rbR := 11, rb := List.replicate 11 ⟨5, 5, 5⟩ ++ [⟨30000, -30000, 7⟩, ⟨30000, -30000, 9⟩] ++
          List.replicate 11 ⟨5, 5, 5⟩ }) =
      some (⟨0, 0, 20⟩, ⟨-5536, 5536, 9⟩, 12, 11, [.rbOverflow 11]) := by decide
/-- V-R8: `RB_N` = 2, the second push merges into the slot it has just written. -/
theorem test_push_smallest_ring :
    got (fun t => (t.rb, t.rbR, t.rbW))
      (exec (.push ⟨10, 20, 2⟩) { State.resetWith { tp with rbN := 2 } with rb := [⟨1, 2, 1⟩, ⟨0, 0, 0⟩], rbW := 1 }) =
      some ([⟨1, 2, 1⟩, ⟨11, 22, 2⟩], 1, 0) := by decide
theorem test_merge :
    got (fun t => (t.rb.take 2, t.rbR, t.ovfCount, t.events))
      (exec .merge { s0 with rb := ⟨1, 2, 3⟩ :: ⟨10, 20, 30⟩ :: List.replicate 22 ⟨0, 0, 0⟩ }) =
      some ([⟨1, 2, 3⟩, ⟨11, 22, 30⟩], 1, 1, [.rbOverflow 0]) := by decide
/-- V-R5. -/
theorem test_drain_empty : got (fun t => (t.reports, t.rbR)) (exec .drain s0) = some ([], 0) := by decide
/-- V-E6. -/
theorem test_emit_motion_split :
    got (fun t => t.reports.map reportBytes) (exec (.emitMotion ⟨300, -10, 0⟩) s0) =
      some [[0x00, 0x7F, 0xF6, 0, 0], [0x00, 0x7F, 0, 0, 0], [0x00, 0x2E, 0, 0, 0]] := by decide
/-- V-E5: no report carries -128. -/
theorem test_emit_motion_never_min :
    got (fun t => t.reports.map reportBytes) (exec (.emitMotion ⟨-128, 0, 0⟩) s0) =
      some [[0x00, 0x81, 0, 0, 0], [0x00, 0xFF, 0, 0, 0]] := by decide

/-! ### Buttons (43_button_latch.md, 44_eager_debounce.md) -/

/-- V-L1, (0, 0): the pins agree. -/
theorem test_main_edge_spurious :
    got (fun t => (t.events, t.mlState.right, t.mlFlag.right)) (exec (.mainEdge .right) s0) =
      some ([.spuriousEdge .right], .up, .clear) := by decide
/-- V-L2. -/
theorem test_main_edge_over_read :
    got (fun t => (t.mlState.left, t.mlFlag.left))
      (exec (.mainEdge .left) { s0 with
        pins := ⟨false, true, false, false, false, false, false, false, false⟩, mlFlag := ⟨.read, .clear⟩ }) =
      some (.down, .set) := by decide
/-- V-L4: a handler between steps 1 and 2. -/
theorem test_latch_poll_race_before_report :
    got (fun t => (t.reports, t.mlFlag.left))
      (exec (.latchPoll .left) { s0 with
        mlState := ⟨.down, .up⟩, mlFlag := ⟨.set, .clear⟩
        pins := ⟨true, false, false, false, false, false, false, false, false⟩
        irqPending := ⟨true, false, false, false, false, false, false, false, false⟩, interludes := [[.isr .lNo]] }) =
      some ([⟨0, 0, 0, 0, 0⟩], .set) := by decide
/-- V-L5: a handler between steps 2 and 3. -/
theorem test_latch_poll_race_after_report :
    got (fun t => (t.reports, t.mlFlag.left))
      (exec (.latchPoll .left) { s0 with
        mlState := ⟨.down, .up⟩, mlFlag := ⟨.set, .clear⟩
        pins := ⟨true, false, false, false, false, false, false, false, false⟩
        irqPending := ⟨true, false, false, false, false, false, false, false, false⟩, interludes := [[], [.isr .lNo]] }) =
      some ([⟨1, 0, 0, 0, 0⟩], .set) := by decide
/-- V-A1. -/
theorem test_aux_edge_press :
    got (fun t => (t.axState.m, t.axEvent.m, t.axHoldTs.m)) (exec (.auxEdge .m) { s0 with now := 5000 }) =
      some (.down, true, 5000) := by decide
/-- V-A2. -/
theorem test_aux_edge_release :
    got (·.axConfirm) (exec (.auxEdge .s4) { s0 with axState := ⟨.up, .down, .up⟩ }) = some ⟨0, 10, 0⟩ := by decide
/-- V-A4. -/
theorem test_aux_confirm_bounce :
    got (fun t => (t.axState.m, t.axConfirm.m, t.events))
      (exec (.auxConfirm .m) { s0 with axState := ⟨.down, .up, .up⟩, axConfirm := ⟨4, 0, 0⟩ }) =
      some (.down, 0, [.auxBounce .m]) := by decide
/-- V-A6. -/
theorem test_aux_confirm_release :
    got (fun t => (t.axState.m, t.axConfirm.m, t.axEvent.m))
      (exec (.auxConfirm .m) { s0 with
        axState := ⟨.down, .up, .up⟩, axConfirm := ⟨1, 0, 0⟩
        pins := ⟨false, false, false, false, true, false, false, false, false⟩ }) = some (.up, 0, true) := by decide
/-- V-A8. -/
theorem test_aux_poll :
    got (fun t => (t.reports, t.axEvent.s4))
      (exec (.auxPoll .s4) { s0 with axState := ⟨.up, .down, .up⟩, axEvent := ⟨false, true, false⟩ }) =
      some ([⟨0x10, 0, 0, 0, 0⟩], false) := by decide

/-! ### The scroll wheel (45_scroll_decoder.md) -/

/-- V-S1a. -/
theorem test_scroll_edge_a :
    got (fun t => (t.scDir, t.scEvent, t.scPhaseA, t.scPhaseB))
      (exec .scrollEdgeA { s0 with pins := ⟨false, false, false, false, false, false, false, true, true⟩ }) =
      some (.up, true, true, true) := by decide
/-- V-S1c. -/
theorem test_scroll_edge_b :
    got (·.scDir) (exec .scrollEdgeB { s0 with pins := ⟨false, false, false, false, false, false, false, false, true⟩ }) =
      some .up := by decide
/-- V-S3, cycle 3: saturation. -/
theorem test_speed_saturates : got (·.scSpeed) (exec (.speedAdjust true) { s0 with scSpeed := 3 }) = some 3 := by decide
/-- V-S3, cycle 5. -/
theorem test_speed_decays :
    got (fun t => (t.scSpeed, t.scStopped)) (exec (.speedAdjust false) { s0 with scSpeed := 3, scStopped := 1 }) =
      some (2, 0) := by decide
/-- V-S5. -/
theorem test_scroll_poll_down :
    got (fun t => t.reports.map reportBytes)
      (exec .scrollPoll { s0 with scSpeed := 2, scEvent := true, scDir := .down }) = some [[0x00, 0, 0, 0xFD, 0]] := by decide

/-! ### Cycles, shutdown, handlers and events (46_poll_loop.md, 60_exceptions.md) -/

/-- V-P1d: the cycle's end at 0x64 is 116 after its start, so it sleeps 134; the capture takes 3, the delay the rest. -/
theorem test_sensor_cycle_sleep :
    got (·.now)
      (exec .sensorCycle { streaming [.fault] with now := 0xFFFFFFF0, slacks := [113] }) = some 0x000000EA := by decide
/-- V-P1b: a cycle that took 250 does not sleep. -/
theorem test_sensor_cycle_overrun :
    got (·.now) (exec .sensorCycle { streaming [.fault] with now := 1000, slacks := [247] }) = some 1250 := by decide
theorem test_button_cycle_sleep :
    got (fun t => (t.now, t.runButton)) (exec .buttonCycle { s0 with shutdownReq := true }) = some (1000, false) := by decide
/-- V-P3f and V-P3g. -/
theorem test_button_mask :
    got (·.ret) (exec .buttonMask { s0 with mlState := ⟨.down, .up⟩, axState := ⟨.up, .down, .up⟩ }) = some (.mask 0x11) ∧
    got (·.ret) (exec .buttonMask { s0 with mlState := ⟨.up, .down⟩, axState := ⟨.up, .up, .down⟩ }) = some (.mask 0x0A) := by
  decide
theorem test_scroll_cycle_sleep :
    got (fun t => (t.now, t.runScroll)) (exec .scrollCycle { s0 with now := 0xFFFFFFFF }) = some (999, true) := by decide
theorem test_shutdown_boundary :
    got (fun t => (t.runScroll, t.runButton)) (exec (.shutdown .scroll) { s0 with shutdownReq := true }) =
      some (false, true) := by decide
theorem test_handler_entry :
    got (fun t => (t.irqPending.s5, t.axState.s5))
      (exec (.handlerEntry .s5) { s0 with irqPending := ⟨false, false, false, false, false, false, true, false, false⟩ }) =
      some (false, .down) := by decide
theorem test_handler_return :
    got (fun t => (t.irqPending.m, t.now)) (exec .handlerReturn { s0 with
      irqPending := ⟨false, false, false, false, true, false, false, false, false⟩, now := 9 }) = some (true, 9) := by decide
/-- V-V5 and V-A4: the records as the vectors write them. -/
theorem test_event_records :
    [Event.transportFaultInit ⟨.verify, 0, 5⟩, .auxBounce .m].map eventRecord =
      [(1, .position ⟨.verify, 0, 5⟩), (6, .number 0)] := by decide
theorem test_raise : got (·.events) (exec (.raise (.auxBounce .s4)) s0) = some [.auxBounce .s4] := by decide
theorem test_emit : got (·.reports) (exec (.emit ⟨1, 2, 3, 4, 0⟩) s0) = some [⟨1, 2, 3, 4, 0⟩] := by decide

/-! ### The step and the placing of an instruction -/

/-- A placed word runs at the next step, and the position moves on. -/
theorem test_step_placed :
    got (fun t => (t.now, t.agenda, t.pos)) (step (s0.withFetchWord 16 0x33E8)) = some (1000, [], 1) := by decide
theorem test_step_at_reset : refusal (step s0) = some .programEnded := by decide
theorem test_step_illegal : refusal (step (s0.withFetchWord 16 0x3000)) = some (.illegalCode .zeroTick) := by decide
/-- The one fault: a push into a ring slot that does not exist (log 9). -/
theorem test_step_fault : faulted (step ({ s0 with rbW := 24 }.withFetchWord 16 0xA040)) = some (.noSuchSlot 24) := by decide

/-! ### The sensor task one rule step at a time (R230), and the wide status registers -/

/-- Chip-select asserted between two steps of a transaction (R401). -/
theorem test_step_ncs_low :
    got (fun t => (t.ncs, t.wire, t.sensorPos))
      (step { placed .verify .programming with
        sensorPos := .bus .verify .assert, now := 5, agenda := [.sensorStep] }) =
      some (false, [.ncs false 5], .bus .verify (.settle 5)) := by decide
/-- The reset line asserted between two steps of `S_RESET_PULSE` (R454). -/
theorem test_step_nreset_low :
    got (·.nreset) (step { placed .resetPulse .resetting with agenda := [.sensorStep] }) = some false := by decide
/-- The replay of a mode table stands in `S_MODE` between its steps (R470). -/
theorem test_step_mode :
    got (fun t => (t.seqPc.step, t.sensorPos)) (step { streaming [] with agenda := [.board (.startMode .office)] }) =
      some (.mode, .bus (.entry (.mode .office) 0x42 0xA5) (.gap 0)) := by decide
/-- A ring operation of the runner waits for the sensor task to end its own (20_memory.md R211). -/
theorem test_step_pusht_busy :
    refusal (step { s0 with sensorPos := .drain, agenda := [.code (.stim 0xA040)] }) = some .sensorBusy := by decide
/-- SR20 is as wide as `SC_STOPPED` (10_state.md R170). -/
theorem test_status_register_wide : statusReg { s0 with scStopped := 2 ^ 32 } 20 = some (2 ^ 32) := by decide

/-! ### Witnesses: states and operands that meet the hypotheses of each statement -/

/-- The next item is a stimulus word. -/
def withWord (w : BitVec 16) (s : State) : State := { s with agenda := [.code (.stim w)] }

/-- A ring with 23 live samples: the next push merges. -/
def fullRing : State := { s0 with rbW := 23 }

/-- A units' state at the edges of its ranges: a fresh release confirmation, the highest speed, an event in the middle of a
scroll cycle. -/
def busyUnits : State :=
  { s0 with
    axState := ⟨.down, .down, .up⟩, axConfirm := ⟨10, 1, 0⟩, scSpeed := 3, scStopped := 1, scEvent := true, scDir := .down
    scrollK := [.adjust true .up, .report .down] }

/-- The last attempt of the verification poll. -/
def lastAttempt (answers : List ReadAnswer) : State :=
  { placed .verify .programming with seqPc := ⟨.verify, 0, 59⟩, oracle := answers }

theorem ringOk_s0 : RingOk s0 := ⟨by decide, by decide, by decide, by decide⟩
theorem ringOk_fullRing : RingOk fullRing := ⟨by decide, by decide, by decide, by decide⟩
theorem unitsOk_s0 : UnitsOk s0 :=
  ⟨by decide, fun a => by cases a <;> exact ⟨by decide, by decide⟩, by decide, by decide, by decide, by decide,
    by simp [s0, State.resetWith]⟩
theorem unitsOk_busyUnits : UnitsOk busyUnits :=
  ⟨by decide, fun a => by cases a <;> exact ⟨by decide, by decide⟩, by decide, by decide, by decide, by decide,
    by simp [busyUnits, ScrollStepOk]⟩
theorem sensorAtBoundary_s0 : SensorAtBoundary s0 := ⟨rfl, by decide⟩

/-- The sensor task at a position of its own steps. -/
def standing (p : SensorPos) (s : State) : State := { s with sensorPos := p }

/-- Inside the last read of the verification poll, chip-select asserted. -/
def midRead : State := { standing (.bus .verify (.send 0)) (lastAttempt [.byte 0x81]) with ncs := false }

theorem driverOk_midRead : DriverOk { midRead with agenda := [.sensorStep] } :=
  ⟨rfl, rfl, rfl, rfl, by decide, fun _ => by decide, fun _ _ => rfl, fun _ => rfl, by decide, by decide, by decide, rfl,
    fun h => nomatch h⟩

theorem witness_DecodeEncodeAgree :
    ((Instr.tRead 0x02).wellFormed tp = true ∧ hasCode (.tRead 0x02) = true) ∧
    ((Instr.tBurst 0x20).wellFormed tp = true ∧ hasCode (.tBurst 0x20) = true) ∧
    Code.stim 0x33E8 ∈ encode (.tickms 1) := by decide

theorem witness_StimulusWordsTotalAndUnambiguous :
    illegalStim 0x0000 = false ∧ illegalStim 0xBFFF = true ∧ illegalStim 0xB000 = false ∧ illegalStim 0xC000 = true ∧
    fetchItem (withWord 0x3000 s0) = some (.code (.stim 0x3000)) ∧ illegalStim 0x3000 = true := by decide

theorem witness_BusBytesReadBack :
    decoded (.bus [0x02]) = some (.tRead 0x02) ∧ decoded (.bus [0xFF, 0x00]) = some (.tWrite 0x7F 0x00) ∧
    tp.burstAddr = 0x20 := by decide

theorem witness_ScriptWordsAreWrites :
    (0x8000#16).getLsbD 15 = true ∧ (0x7FFF#16).getLsbD 15 = false ∧
    0x4400#16 ∈ ({ tp with modeTable3 := [0x4400] } : Params).scriptWords ∧ (0x4400#16).getLsbD 15 = false := by decide

theorem witness_StepRunsDecodedInstruction :
    (decoded (.stim 0x33E8) = some (.tick 1000) ∧ (withWord 0x33E8 s0).ended = false ∧
      ∃ t, exec (.tick 1000) (withWord 0x33E8 s0) = .next t) ∧
    (decoded (.stim 0xA040) = some (.pusht 1 0) ∧
      exec (.pusht 1 0) { withWord 0xA040 s0 with rbW := 24 } = .fault (.noSuchSlot 24)) ∧
    (decoded (.stim 0x2000) = some (.isr .lNo) ∧
      exec (.isr .lNo) (withWord 0x2000 s0) = .refused (.irqNotPending .lNo)) :=
  ⟨⟨by decide, rfl, _, rfl⟩, ⟨by decide, rfl⟩, ⟨by decide, rfl⟩⟩

/-- Each other kind of item: one that runs, and one that is turned away. -/
theorem witness_StepRunsDecodedInstruction_items :
    (decoded (.stim 0x6000) = some .scycle ∧ (standing .drain s0).sensorPos ≠ .idle) ∧
    (s0.sensorPos = .idle ∧ s0.runSensor = true ∧ (∃ t, exec .initCommand s0 = .next t) ∧
      exec (.modeSwitch .office) s0 = .refused .notStreaming ∧ ({ s0 with runSensor := false } : State).runSensor = false) ∧
    (s0.seqPc.step ∈ [SeqStep.idle, .stream, .fail] ∧ (∃ t, exec .sensorCycle s0 = .next t) ∧
      exec .sensorCycle (streaming []) = .refused .oracleEmpty) ∧
    ((∃ t, exec .sWake (placed .wake .resetting) = .next t) ∧ (∃ t, exec .sMvalid (placed .mvalid .verified) = .next t) ∧
      exec .sVerify (placed .verify .programming) = .refused .oracleEmpty) ∧
    ((∃ t, exec (.pin .m true) s0 = .next t) ∧ perPinGet s0.irqPending .m = false ∧
      ∃ t, exec (.isr .m) { s0 with irqPending := ⟨false, false, false, false, true, false, false, false, false⟩ } = .next t) :=
  ⟨⟨by decide, by decide⟩, ⟨rfl, rfl, ⟨_, rfl⟩, rfl, rfl⟩, ⟨by decide, ⟨_, rfl⟩, rfl⟩, ⟨⟨_, rfl⟩, ⟨_, rfl⟩, rfl⟩, ⟨_, rfl⟩, rfl,
    _, rfl⟩

theorem witness_ObservationsOnlyGrow :
    (∃ t, exec .btask s0 = .next t) ∧ ∃ t, runItems [.sensorStep] midRead = .next t := ⟨⟨_, rfl⟩, _, rfl⟩

theorem witness_ReservedClassesRefused :
    (0xC000 ≤ (0xC000#16).toNat ∧ fetchItem (withWord 0xC000 s0) = some (.code (.stim 0xC000))) ∧
    (0xC000 ≤ (0xFFFF#16).toNat ∧ fetchItem (withWord 0xFFFF s0) = some (.code (.stim 0xFFFF))) := by decide

theorem witness_StatusRegisterLayout :
    let s : State := { s0 with rbW := 255, rbR := 255, axConfirm := ⟨15, 10, 0⟩ };
    s.rbW < 256 ∧ s.rbR < 256 ∧ perAuxGet s.axConfirm .m < 16 ∧ perAuxGet s.axConfirm .s4 < 16 ∧
    perAuxGet s.axConfirm .s5 < 16 ∧ 4 < 5 ∧ 25 < 26 := by decide

theorem witness_StepKeepsTheRing : RingOk (withWord 0xA040 fullRing) ∧ ∃ t, step (withWord 0xA040 fullRing) = .next t :=
  ⟨⟨by decide, by decide, by decide, by decide⟩, _, rfl⟩

theorem witness_StepKeepsTheUnits :
    UnitsOk { busyUnits with agenda := [.act .scroll] } ∧ ∃ t, step { busyUnits with agenda := [.act .scroll] } = .next t :=
  ⟨⟨unitsOk_busyUnits.params, unitsOk_busyUnits.aux, unitsOk_busyUnits.speedLow, unitsOk_busyUnits.speedHigh,
    unitsOk_busyUnits.stopped, unitsOk_busyUnits.direction, unitsOk_busyUnits.scrollSteps⟩, _, rfl⟩

theorem witness_StepKeepsTheDriver :
    DriverOk { midRead with agenda := [.sensorStep] } ∧ ∃ t, step { midRead with agenda := [.sensorStep] } = .next t :=
  ⟨driverOk_midRead, _, rfl⟩

theorem witness_EveryRunIsSafe : SafeState (withWord 0x4000 s0) :=
  ⟨⟨by decide, by decide, by decide, by decide⟩,
    ⟨unitsOk_s0.params, unitsOk_s0.aux, unitsOk_s0.speedLow, unitsOk_s0.speedHigh, unitsOk_s0.stopped,
      unitsOk_s0.direction, unitsOk_s0.scrollSteps⟩,
    ⟨rfl, rfl, rfl, (by decide : SeqStep.idle ≠ .mode), by decide, fun _ => by decide, fun h => absurd rfl h, fun _ => rfl,
      by decide, by decide, by decide, rfl, fun h => nomatch h⟩,
    ⟨fun r h => absurd h (List.not_mem_nil (a := r)), fun e h => absurd h (List.not_mem_nil (a := e))⟩⟩

/-- By a word, and by the sensor task's own step. -/
theorem witness_FailedIsTerminal :
    (let s := withWord 0x6000 (placed .fail .failed);
      s.drvState = .failed ∧ s.seqPc.step = .fail ∧ posAgrees s.sensorPos s.seqPc.step ∧ ∃ t, step s = .next t) ∧
    (let s : State := { standing .capture (placed .fail .failed) with agenda := [.sensorStep] };
      s.drvState = .failed ∧ s.seqPc.step = .fail ∧ posAgrees s.sensorPos s.seqPc.step ∧ ∃ t, step s = .next t) :=
  ⟨⟨rfl, rfl, (by decide : SeqStep.fail ≠ .mode), _, rfl⟩, rfl, rfl, rfl, _, rfl⟩

theorem witness_NothingIsUndone :
    let s : State := { withWord 0x1001 s0 with
      power := true, busCorrupt := true, runSensor := false, runButton := false, runScroll := false, shutdownReq := true };
    ∃ t, step s = .next t := ⟨_, rfl⟩

theorem witness_OnlyShortWaitsCorrupt :
    ((∀ x ∈ ({ withWord 0x33E8 s0 with slacks := [0, 5] } : State).slacks, 0 ≤ x) ∧
      ∃ t, step { withWord 0x33E8 s0 with slacks := [0, 5] } = .next t) ∧
    (let s : State := { placed .first .programming with busLast := .write, slacks := [-1, -1] };
      s.interludes = [] ∧ s.slacks = [-1, -1] ∧ busPermitted .write s = true) ∧
    (let s : State := { placed .verify .programming with oracle := [.byte 0x80], slacks := [0, 0, -1] };
      s.interludes = [] ∧ s.slacks = [0, 0, -1] ∧ busPermitted .read s = true ∧ (0x01 : Addr) ≠ s.params.burstAddr) ∧
    (let s : State := { streaming [.fault] with slacks := [0, 0, -2] };
      s.interludes = [] ∧ s.slacks = [0, 0, -2] ∧ busPermitted .burst s = true) :=
  ⟨⟨by decide, _, rfl⟩, ⟨rfl, rfl, by decide⟩, ⟨rfl, rfl, by decide, by decide⟩, rfl, rfl, by decide⟩

/-- The end of a gap, of a settle time and of both delays, the last of each at its minimum less one. -/
theorem witness_OnlyShortWaitsCorrupt_stepwise :
    (let s : State := { standing (.bus (.diag 0x30) (.gap 0)) (placed .diag .verified) with
        busLast := .write, slacks := [-1], now := 19 };
      gapNeeded s.params s.busLast = 20 ∧ ((20 : Nat) + (-1 : Int)).toNat ≤ elapsedSince s.now 0 ∧
      elapsedSince s.now 0 < 20) ∧
    (let s : State := { standing (.bus .verify (.settle 0)) (placed .verify .programming) with slacks := [-1] };
      ((s.params.tNcsSclk : Int) + (-1 : Int)).toNat ≤ elapsedSince s.now 0) ∧
    (let s : State := { standing (.bus .verify (.delay 0 0)) (placed .verify .programming) with slacks := [0], now := 2 };
      s.params.tSrad = 2 ∧ ((2 : Nat) + (0 : Int)).toNat ≤ elapsedSince s.now 0) ∧
    (let s : State := { standing (.bus .capture (.delay 0 0)) (streaming []) with slacks := [-2] };
      ((s.params.tSradMotbr : Int) + (-2 : Int)).toNat ≤ elapsedSince s.now 0) := by decide

theorem witness_OnlyTheSensorTouchesTheBus :
    (∃ t, exec .buttonCycle s0 = .next t) ∧ (∃ t, exec .scrollCycle busyUnits = .next t) ∧
    (∃ t, exec (.isr .m) { s0 with irqPending := ⟨false, false, false, false, true, false, false, false, false⟩ } = .next t) ∧
    ∃ t, runItems [.act .button] s0 = .next t :=
  ⟨⟨_, rfl⟩, ⟨_, rfl⟩, ⟨_, rfl⟩, _, rfl⟩

theorem witness_HandlerEntryRunsTheHandler :
    perPinGet ({ s0 with irqPending := ⟨true, false, false, false, false, false, false, false, true⟩ } : State).irqPending
      .lNo = true ∧
    perPinGet s0.irqPending .scrB = false := by decide

theorem witness_AuxConfirmTakesTenSamples :
    let s : State := { s0 with
      axState := ⟨.up, .down, .up⟩, axConfirm := ⟨0, 10, 0⟩
      pins := ⟨false, false, false, false, false, true, false, false, false⟩ };
    perAuxGet s.axState .s4 = .down ∧ perAuxGet s.axConfirm .s4 = 10 ∧ 0 ≤ 10 ∧ 10 ≤ 10 ∧
    perPinGet s.pins (auxPin .s4) ≠ perAuxGet s.params.auxPressLevel .s4 := by decide

theorem witness_LatchPollReports : ({ s0 with mlFlag := ⟨.set, .clear⟩ } : State).interludes = [] := rfl
theorem witness_AuxPollReports : ({ s0 with axEvent := ⟨true, false, false⟩ } : State).interludes = [] := rfl
theorem witness_ScrollPollReportsWheel : busyUnits.interludes = [] := rfl
theorem witness_EmitMotionSplits : s0.interludes = [] := rfl

/-- A release between steps 2 and 3, and a press between steps 1 and 2. -/
theorem witness_LatchPollKeepsRetrigger :
    (let s : State := { s0 with
        mlState := ⟨.down, .up⟩, mlFlag := ⟨.set, .clear⟩, interludes := [[], [.isr .lNo]]
        pins := ⟨true, false, false, false, false, false, false, false, false⟩
        irqPending := ⟨true, false, false, false, false, false, false, false, false⟩ };
      s.interludes = [[], [.isr .lNo]] ∧ perMainGet s.mlFlag .left = .set ∧ perPinGet s.irqPending .lNo = true ∧
      perPinGet s.pins (noPin .left) ≠ perPinGet s.pins (ncPin .left) ∧
      (perPinGet s.pins (noPin .left) = perMainGet s.params.mainPressLevel .left ↔ perMainGet s.mlState .left = .up)) ∧
    (let s : State := { s0 with
        mlFlag := ⟨.clear, .set⟩, interludes := [[.isr .rNc]]
        pins := ⟨false, false, false, true, false, false, false, false, false⟩
        irqPending := ⟨false, false, false, true, false, false, false, false, false⟩ };
      s.interludes = [[.isr .rNc]] ∧ perMainGet s.mlFlag .right = .set ∧ perPinGet s.irqPending .rNc = true ∧
      perPinGet s.pins (noPin .right) ≠ perPinGet s.pins (ncPin .right) ∧
      (perPinGet s.pins (noPin .right) = perMainGet s.params.mainPressLevel .right ↔ perMainGet s.mlState .right = .up)) := by
  decide

/-- At the boundary, stopped, asleep for 999 and for 1000, and with a pending release. -/
theorem witness_ButtonCycleRunsItsCalls :
    (ExactSchedule s0 ∧ ButtonAtBoundary s0 ∧ s0.runButton = true) ∧
    ({ s0 with runButton := false } : State).runButton = false ∧
    (let s : State := { s0 with buttonSleep := some 0, now := 999 };
      s.runButton = true ∧ s.buttonK = [] ∧ elapsedSince s.now 0 < 1000) ∧
    (let s : State := { s0 with buttonSleep := some 0, now := 1000, shutdownReq := true };
      s.runButton = true ∧ s.buttonK = [] ∧ ¬ elapsedSince s.now 0 < 1000) ∧
    (let s : State := { s0 with
        axState := ⟨.up, .down, .up⟩, axConfirm := ⟨0, 10, 0⟩
        pins := ⟨false, false, false, false, false, true, false, false, false⟩ };
      ExactSchedule s ∧ ButtonAtBoundary s ∧ s.runButton = true ∧ s.shutdownReq = false ∧
      perAuxGet s.axState .s4 = .down ∧ perAuxGet s.axConfirm .s4 = 10 ∧
      perPinGet s.pins (auxPin .s4) ≠ perAuxGet s.params.auxPressLevel .s4) :=
  ⟨⟨⟨rfl, rfl⟩, ⟨rfl, rfl⟩, rfl⟩, rfl, ⟨rfl, rfl, by decide⟩, ⟨rfl, rfl, by decide⟩, ⟨rfl, rfl⟩, ⟨rfl, rfl⟩, rfl, rfl, rfl, rfl,
    by decide⟩

theorem witness_SpeedAdjustRampsAndDecays :
    (let s : State := { s0 with scSpeed := 3 };
      s.scStopped = 0 ∧ 1 < s.scSpeed ∧ s.params.pause + 1 ≤ s.params.pause + 1 ∧ s.scSpeed ≤ s.params.speedMax) ∧
    s0.scSpeed = 1 ∧ ∃ t, exec (.speedAdjust true) s0 = .next t := ⟨by decide, rfl, _, rfl⟩

/-- At the boundary without and with an event, stopped, and asleep for 999 and for 1000. -/
theorem witness_ScrollCycleRunsItsCall :
    (ExactSchedule s0 ∧ ScrollAtBoundary s0 ∧ s0.runScroll = true ∧ s0.scEvent = false ∧
      ({ s0 with scEvent := true } : State).scEvent = true) ∧
    ({ s0 with runScroll := false } : State).runScroll = false ∧
    (let s : State := { s0 with scrollSleep := some 0, now := 999 };
      s.runScroll = true ∧ s.scrollK = [] ∧ elapsedSince s.now 0 < 1000) ∧
    (let s : State := { s0 with scrollSleep := some 0, now := 1000, shutdownReq := true };
      s.runScroll = true ∧ s.scrollK = [] ∧ ¬ elapsedSince s.now 0 < 1000) :=
  ⟨⟨⟨rfl, rfl⟩, ⟨rfl, rfl⟩, rfl, rfl, rfl⟩, rfl, ⟨rfl, rfl, by decide⟩, rfl, rfl, by decide⟩

theorem witness_PushStoresAndMerges :
    RingOk s0 ∧ (s0.rbW + 1) % s0.params.rbN ≠ s0.rbR ∧
    RingOk fullRing ∧ (fullRing.rbW + 1) % fullRing.params.rbN = fullRing.rbR :=
  ⟨ringOk_s0, by decide, ringOk_fullRing, by decide⟩

theorem witness_PushesConserveDisplacement : RingOk fullRing := ringOk_fullRing

theorem witness_RingOccupancy : RingOk fullRing ∧ ∃ t, exec (.push ⟨1, 0, 0⟩) fullRing = .next t :=
  ⟨ringOk_fullRing, _, rfl⟩

theorem witness_DrainReportsEverySample :
    let s := standing .drain fullRing;
    RingOk s ∧ s.interludes = [] ∧ s.runSensor = true ∧ s.sensorPos = .drain :=
  ⟨⟨by decide, by decide, by decide, by decide⟩, rfl, rfl, rfl⟩

theorem witness_BusWriteTransaction :
    ExactSchedule (placed .first .programming) ∧ busPermitted .write (placed .first .programming) = true ∧
    busPermitted .write (placed .mode .streaming) = true ∧
    (let s := standing (.bus (.entry .first 0x10 0x01) (.gap 0)) (placed .first .programming);
      s.slacks = [] ∧ s.runSensor = true ∧ s.sensorPos = .bus (.entry .first 0x10 0x01) (.gap (lastEnd s)) ∧
      gapNeeded s.params s.busLast < 2 ^ 32 ∧ s.params.tNcsSclk < 2 ^ 32) :=
  ⟨⟨rfl, rfl⟩, rfl, rfl, rfl, rfl, rfl, by decide, by decide⟩

theorem witness_BusReadTransaction :
    (let s : State := { placed .verify .programming with oracle := [.byte 0x80] };
      ExactSchedule s ∧ busPermitted .read s = true ∧ (0x01 : Addr) ≠ s.params.burstAddr) ∧
    (let s : State := { placed .diag .degraded with oracle := [.fault] };
      ExactSchedule s ∧ busPermitted .read s = true ∧ (0x7F : Addr) ≠ s.params.burstAddr) ∧
    (let s := standing (.bus .verify (.gap 0)) { placed .verify .programming with oracle := [.byte 0x80] };
      s.slacks = [] ∧ s.runSensor = true ∧ s.sensorPos = .bus .verify (.gap (lastEnd s)) ∧
      gapNeeded s.params s.busLast < 2 ^ 32 ∧ s.params.tNcsSclk < 2 ^ 32 ∧ s.params.tSrad < 2 ^ 32) :=
  ⟨⟨⟨rfl, rfl⟩, rfl, by decide⟩, ⟨⟨rfl, rfl⟩, rfl, by decide⟩, rfl, rfl, rfl, by decide, by decide, by decide⟩

theorem witness_BusBurstTransaction :
    (let s := streaming [.burst (List.replicate 12 0)];
      ExactSchedule s ∧ busPermitted .burst s = true ∧ (List.replicate 12 (0 : Byte)).length = 12) ∧
    (ExactSchedule (streaming [.fault]) ∧ busPermitted .burst (streaming [.fault]) = true) ∧
    (let s := standing (.bus .capture (.gap 0)) (streaming [.fault]);
      s.slacks = [] ∧ s.runSensor = true ∧ s.sensorPos = .bus .capture (.gap (lastEnd s)) ∧
      gapNeeded s.params s.busLast < 2 ^ 32 ∧ s.params.tNcsSclk < 2 ^ 32 ∧ s.params.tSradMotbr < 2 ^ 32) :=
  ⟨⟨⟨rfl, rfl⟩, rfl, rfl⟩, ⟨⟨rfl, rfl⟩, rfl⟩, rfl, rfl, rfl, by decide, by decide, by decide⟩

theorem witness_TransactionsUnderAnySchedule :
    busPermitted .write { placed .close .programming with interludes := [[.pin .m true], [.isr .m]], slacks := [-3, 7] } = true ∧
    (busPermitted .read { placed .verify .programming with oracle := [.byte 0x80], interludes := [[.button]] } = true ∧
      (0x01 : Addr) ≠ tp.burstAddr) ∧
    busPermitted .read { placed .diag .verified with oracle := [.fault], slacks := [-1] } = true ∧
    busPermitted .burst { streaming [.burst (List.replicate 12 0)] with slacks := [4] } = true ∧
    busPermitted .burst { streaming [.fault] with interludes := [[.tick 9 (by decide)]] } = true := by decide

theorem witness_BusRefusals :
    busPermitted .read (placed .verify .programming) = true ∧ (0x21 : Addr) ≠ s0.params.burstAddr ∧ 11 ≠ 12 ∧ 13 ≠ 12 ∧
    s0.power = false ∧ ({ placed .first .programming with nreset := false } : State).nreset = false ∧
    (placed .fail .failed).seqPc.step ∈ [SeqStep.idle, .wake, .ncsPulse, .resetPulse, .settle, .mvalid, .fail] ∧
    (placed .verify .programming).oracle = [] ∧ busPermitted .burst (streaming []) = true ∧
    busPermitted .burst (streaming [.byte 0]) = true ∧
    busPermitted .read { placed .diag .verified with oracle := [.burst []] } = true := by decide

theorem witness_InitAndFatalFault :
    (s0.drvState = .unpowered ∧ s0.seqPc.step = .idle) ∧ (placed .wake .resetting).drvState ≠ .unpowered ∧
    (placed .wake .unpowered).seqPc.step ≠ .idle ∧
    (placed .first .programming).seqPc.step ∈ [SeqStep.first, .verify, .repair, .close, .diag, .mode] ∧
    (placed .mode .streaming).seqPc.step ∈ [SeqStep.first, .verify, .repair, .close, .diag, .mode] := by decide

theorem witness_TimedBringUpSteps :
    ExactSchedule (placed .wake .resetting) ∧ (placed .wake .resetting).seqPc.step = .wake ∧
    ExactSchedule (placed .ncsPulse .resetting) ∧ (placed .ncsPulse .resetting).seqPc.step = .ncsPulse ∧
    ExactSchedule (placed .resetPulse .resetting) ∧ (placed .resetPulse .resetting).seqPc.step = .resetPulse ∧
    ExactSchedule (placed .settle .resetting) ∧ (placed .settle .resetting).seqPc.step = .settle ∧
    ExactSchedule (placed .mvalid .verified) ∧ (placed .mvalid .verified).seqPc.step = .mvalid ∧
    (placed .mvalid .verified).runSensor = true ∧ (placed .mvalid .verified).sensorPos = .idle ∧
    tp.tWake < 2 ^ 32 ∧ tp.tNcsPulse < 2 ^ 32 ∧ tp.tResetPulse < 2 ^ 32 ∧ tp.tResetSettle < 2 ^ 32 ∧
    tp.tMotionValid < 2 ^ 32 :=
  ⟨⟨rfl, rfl⟩, rfl, ⟨rfl, rfl⟩, rfl, ⟨rfl, rfl⟩, rfl, ⟨rfl, rfl⟩, rfl, ⟨rfl, rfl⟩, rfl, rfl, rfl, by decide, by decide,
    by decide, by decide, by decide⟩

theorem witness_ScriptEntryIsOneWrite :
    ExactSchedule (placed .repair .programming) ∧ busPermitted .write (placed .repair .programming) = true ∧
    ExactSchedule { placed .repair .programming with writeOracle := [.fault] } ∧
    (tp.wf = true ∧ (placed .repair .programming).runSensor = true ∧ (placed .repair .programming).sensorPos = .idle ∧
      ScriptId.repair ∈ [ScriptId.first, .repair, .close] ∧
      (placed .repair .programming).seqPc.step = scriptStep .repair) ∧
    (standing (.bus (.entry .close 0x15 0x06) (.returned 0 (.ok []))) (placed .close .programming)).runSensor = true :=
  ⟨⟨rfl, rfl⟩, rfl, ⟨rfl, rfl⟩, ⟨by decide, rfl, rfl, by decide, rfl⟩, rfl⟩

/-- At the first entry, and past the last one. -/
theorem witness_ReplaySendsTheScript :
    tp.wf = true ∧ RunnerSchedule (placed .first .programming) ∧ (placed .first .programming).seqPc.step = .first ∧
    RunnerSchedule (placed .repair .programming) ∧ (placed .repair .programming).seqPc.step = scriptStep .repair ∧
    RunnerSchedule { placed .close .programming with seqPc := ⟨.close, 1, 60⟩ } ∧
    RunnerSchedule (placed .mode .streaming) ∧ (placed .mode .streaming).seqPc.step = scriptStep (.mode .office) ∧
    (∀ st ∈ [SeqStep.first, .repair, .close],
      let s := standing .leave (placed st .programming);
      s.runSensor = true ∧ s.sensorPos = .leave ∧ s.seqPc.step = st) :=
  ⟨by decide, ⟨⟨rfl, rfl⟩, rfl⟩, rfl, ⟨⟨rfl, rfl⟩, rfl⟩, rfl, ⟨⟨rfl, rfl⟩, rfl⟩, ⟨⟨rfl, rfl⟩, rfl⟩, rfl,
    fun _ _ => ⟨rfl, rfl, rfl⟩⟩

/-- A fault on the first entry, and on the last one. -/
theorem witness_ReplayStopsAtAFault :
    tp.wf = true ∧
    (let s : State := { placed .repair .programming with writeOracle := [.fault] };
      ExactSchedule s ∧ s.seqPc.step = scriptStep .repair ∧ s.seqPc.idx = 0 ∧ 0 < (scriptOf tp .repair).length ∧
      s.writeOracle = List.replicate 0 (.ok ()) ++ .fault :: []) ∧
    (let s : State := { placed .repair .programming with writeOracle := [.ok (), .ok (), .fault] };
      ExactSchedule s ∧ s.seqPc.step = scriptStep .repair ∧ s.seqPc.idx = 0 ∧ 2 < (scriptOf tp .repair).length ∧
      s.writeOracle = List.replicate 2 (.ok ()) ++ .fault :: []) :=
  ⟨by decide, ⟨⟨rfl, rfl⟩, rfl, rfl, by decide, rfl⟩, ⟨rfl, rfl⟩, rfl, rfl, by decide, rfl⟩

/-- On the last attempt: the expected byte, another byte, a fault; and no attempt left. -/
theorem witness_VerifyPoll :
    tp.wf = true ∧
    (ExactSchedule (lastAttempt [.byte 0x80]) ∧ (lastAttempt [.byte 0x80]).seqPc.step = .verify ∧
      (lastAttempt [.byte 0x80]).seqPc.attempt + ([] : List Byte).length < 60) ∧
    (ExactSchedule (lastAttempt [.byte 0x81]) ∧ (∀ b ∈ [(0x81 : Byte)], b ≠ 0x80) ∧
      (lastAttempt [.byte 0x81]).seqPc.attempt + [(0x81 : Byte)].length = 60) ∧
    (ExactSchedule (lastAttempt [.fault]) ∧ (lastAttempt [.fault]).oracle = ([] : List Byte).map .byte ++ .fault :: []) ∧
    ({ lastAttempt [] with seqPc := ⟨.verify, 0, 60⟩ } : State).seqPc.attempt + ([] : List Byte).length = 60 ∧
    ((lastAttempt []).runSensor = true ∧ (lastAttempt []).sensorPos = .idle ∧ (lastAttempt []).seqPc.attempt < 60 ∧
      (lastAttempt []).slacks = []) ∧
    ∀ r : Answer (List Byte), (standing (.bus .verify (.returned 0 r)) (lastAttempt [])).seqPc.attempt + 1 = 60 :=
  ⟨by decide, ⟨⟨rfl, rfl⟩, rfl, by decide⟩, ⟨⟨rfl, rfl⟩, by decide, rfl⟩, ⟨⟨rfl, rfl⟩, rfl⟩, rfl, ⟨rfl, rfl, by decide, rfl⟩,
    fun _ => rfl⟩

/-- From the first address, from past the last one, and a fault on the last one. -/
theorem witness_DiagnosticReads :
    tp.wf = true ∧
    (let s : State := { placed .diag .verified with oracle := [.byte 1, .byte 2, .byte 3, .byte 4, .byte 5] };
      ExactSchedule s ∧ s.seqPc.step = .diag ∧ s.diag.length = 5 ∧ s.seqPc.idx + [(1 : Byte), 2, 3, 4, 5].length = 5) ∧
    (let s : State := { placed .diag .verified with seqPc := ⟨.diag, 5, 1⟩ };
      ExactSchedule s ∧ s.diag.length = 5 ∧ s.seqPc.idx + ([] : List Byte).length = 5 ∧ s.oracle = [].map .byte ++ []) ∧
    (let s : State := { placed .diag .verified with seqPc := ⟨.diag, 4, 1⟩, oracle := [.fault] };
      ExactSchedule s ∧ s.diag.length = 5 ∧ s.seqPc.idx + ([] : List Byte).length < 5 ∧
      s.oracle = ([] : List Byte).map .byte ++ .fault :: []) ∧
    (∀ p ∈ [SensorPos.idle, .bus (.diag 0x30) (.returned 0 (.ok [0xA1])), .bus (.diag 0x30) (.returned 0 .fault), .leave],
      let s := standing p (placed .diag .verified);
      s.runSensor = true ∧ s.seqPc.step = .diag ∧ s.sensorPos = p) :=
  ⟨by decide, ⟨⟨rfl, rfl⟩, rfl, rfl, rfl⟩, ⟨⟨rfl, rfl⟩, rfl, rfl, rfl⟩, ⟨⟨rfl, rfl⟩, rfl, by decide, rfl⟩,
    fun _ _ => ⟨rfl, rfl, rfl⟩⟩

/-- A first read of 0x80, and sixty other bytes. -/
theorem witness_BringUpTraffic :
    tp.wf = true ∧ s0.runSensor = true ∧ s0.drvState = .unpowered ∧ s0.seqPc.step = .idle ∧
    s0.sensorPos = .idle ∧ s0.diag.length = 5 ∧
    (let s : State := { s0 with oracle := [.byte 0x80, .byte 1, .byte 2, .byte 3, .byte 4, .byte 5] };
      RunnerSchedule s ∧
      s.oracle = [].map .byte ++ (if false = true then [] else [.byte 0x80]) ++ [(1 : Byte), 2, 3, 4, 5].map .byte ++ []) ∧
    (let s : State := { s0 with oracle := (List.replicate 60 (0x00 : Byte) ++ [1, 2, 3, 4, 5]).map .byte };
      RunnerSchedule s ∧ (∀ b ∈ List.replicate 60 (0x00 : Byte), b ≠ 0x80) ∧ (List.replicate 60 (0x00 : Byte)).length = 60 ∧
      s.oracle = (List.replicate 60 (0x00 : Byte)).map .byte ++ (if true = true then [] else [.byte 0x80]) ++
        [(1 : Byte), 2, 3, 4, 5].map .byte ++ []) :=
  ⟨by decide, rfl, rfl, rfl, rfl, rfl, ⟨⟨⟨rfl, rfl⟩, rfl⟩, rfl⟩, ⟨⟨rfl, rfl⟩, rfl⟩,
    fun _ h => by rw [List.eq_of_mem_replicate h]; decide, rfl, rfl⟩

theorem witness_InitEndsStreamingOrFailed : ∃ t, exec .initStim { s0 with oracle := [.fault] } = .next t := ⟨_, rfl⟩

theorem witness_CaptureReadsASample :
    (let s := streaming [.burst [0, 0, 0, 0, 0, 0, 0, 0, 0, 0, 0, 0]];
      ExactSchedule s ∧ s.drvState = .streaming ∧ s.seqPc.step = .stream) ∧
    (let s := streaming [.fault];
      ExactSchedule s ∧ s.drvState = .streaming ∧ s.seqPc.step = .stream) ∧
    (∀ r ∈ [Answer.ok (List.replicate 12 (0 : Byte)), .fault],
      let s := standing (.bus .capture (.returned 7 r)) (streaming []);
      s.runSensor = true ∧ s.sensorPos = .bus .capture (.returned 7 r)) :=
  ⟨⟨⟨rfl, rfl⟩, rfl, rfl⟩, ⟨⟨rfl, rfl⟩, rfl, rfl⟩, fun _ _ => ⟨rfl, rfl⟩⟩

theorem witness_ModeSwitchReplaysItsTable :
    (RunnerSchedule (streaming []) ∧ tp.wf = true ∧ (streaming []).runSensor = true ∧ (streaming []).drvState = .streaming ∧
      (streaming []).seqPc.step = .stream) ∧
    ({ streaming [] with runSensor := false } : State).runSensor = false ∧ (placed .diag .degraded).drvState ≠ .streaming ∧
    (placed .mode .streaming).seqPc.step ≠ .stream ∧
    (ExactSchedule { streaming [] with writeOracle := [.ok (), .fault] } ∧ 1 < (tp.modeTable .office).length) ∧
    (streaming []).sensorPos = .idle ∧ (standing (.switched .office) (placed .mode .streaming)).runSensor = true :=
  ⟨⟨⟨⟨rfl, rfl⟩, rfl⟩, by decide, rfl, rfl, rfl⟩, rfl, by decide, by decide, ⟨⟨rfl, rfl⟩, by decide⟩, rfl, rfl⟩

/-- Before a bring-up, failed, stopped, and inside a bring-up or a mode switch. -/
theorem witness_CycleWithoutCapture :
    (RingOk s0 ∧ ExactSchedule s0 ∧ s0.runSensor = true ∧ s0.seqPc.step ∈ [SeqStep.idle, .stream, .fail] ∧
      s0.drvState ≠ .streaming) ∧
    ((placed .fail .failed).seqPc.step ∈ [SeqStep.idle, .stream, .fail] ∧ (placed .fail .failed).seqPc.step ≠ .stream) ∧
    ({ s0 with runSensor := false } : State).runSensor = false ∧
    (∀ st ∈ [SeqStep.wake, .mvalid, .mode],
      (placed st .streaming).runSensor = true ∧ (placed st .streaming).seqPc.step ∉ [SeqStep.idle, .stream, .fail]) :=
  ⟨⟨ringOk_s0, ⟨rfl, rfl⟩, rfl, by decide, by decide⟩, by decide, rfl, by decide⟩

theorem witness_CyclePipelinesTheSample :
    (let s := streaming [.burst [0x80, 0, 1, 0, 0xFF, 0xFF, 0, 0, 0, 0, 0, 0]];
      RingOk s ∧ ExactSchedule s ∧ s.runSensor = true ∧ s.drvState = .streaming ∧ s.seqPc.step = .stream) ∧
    (RingOk (streaming [.fault]) ∧ ExactSchedule (streaming [.fault])) ∧
    (SensorAtBoundary s0 ∧ s0.runSensor = true) ∧
    (standing .capture (streaming [])).sensorPos = .capture ∧
    ∃ u, exec (.push ⟨1, -1, 7⟩) (standing (.push ⟨1, -1, 7⟩) (streaming [])) = .next u :=
  ⟨⟨⟨by decide, by decide, by decide, by decide⟩, ⟨rfl, rfl⟩, rfl, rfl, rfl⟩,
    ⟨⟨by decide, by decide, by decide, by decide⟩, rfl, rfl⟩, ⟨sensorAtBoundary_s0, rfl⟩, rfl, _, rfl⟩

/-- Without and with a capture; and, step by step, a cycle after 249 and after 250, a sleep not over, and the boundary. -/
theorem witness_SensorCycleSleepsTheRemainder :
    (RingOk s0 ∧ ExactSchedule s0 ∧ s0.runSensor = true ∧ s0.seqPc.step ∈ [SeqStep.idle, .stream, .fail] ∧
      s0.drvState ≠ .streaming) ∧
    (let s := streaming [.burst (List.replicate 12 0)];
      RingOk s ∧ ExactSchedule s ∧ s.runSensor = true ∧ s.seqPc.step ∈ [SeqStep.idle, .stream, .fail] ∧
      ∃ rest, s.oracle = .fault :: rest ∨ ∃ bytes, bytes.length = 12 ∧ s.oracle = .burst bytes :: rest) ∧
    (elapsedSince ({ standing .sleep s0 with now := 249 } : State).now s0.loopStart < 250 ∧
      ¬ elapsedSince ({ standing .sleep s0 with now := 250 } : State).now s0.loopStart < 250) ∧
    ((standing (.sleeping 0 1) s0).slacks = [] ∧ elapsedSince (standing (.sleeping 0 1) s0).now 0 < 1) ∧
    (standing .boundary s0).runSensor = true :=
  ⟨⟨ringOk_s0, ⟨rfl, rfl⟩, rfl, by decide, by decide⟩,
    ⟨⟨by decide, by decide, by decide, by decide⟩, ⟨rfl, rfl⟩, rfl, by decide, [], .inr ⟨_, rfl, rfl⟩⟩,
    by decide, ⟨rfl, by decide⟩, rfl⟩

theorem witness_ShutdownStopsTheLoops :
    (ButtonAtBoundary s0 ∧ ScrollAtBoundary s0 ∧ SensorAtBoundary s0) ∧
    ¬ SensorAtBoundary (placed .wake .resetting) ∧ ¬ SensorAtBoundary (standing .capture s0) ∧
    RunEnded { s0 with runSensor := false, runButton := false, runScroll := false } :=
  ⟨⟨⟨rfl, rfl⟩, ⟨rfl, rfl⟩, sensorAtBoundary_s0⟩, fun h => absurd h.2 (by decide),
    (fun h => absurd h.1 (by decide)), rfl, rfl, rfl⟩

theorem witness_CompletesUnderAnySchedule :
    RingOk s0 ∧ s0.runButton = true ∧ s0.runScroll = true ∧ s0.runSensor = true ∧
    s0.seqPc.step ∈ [SeqStep.idle, .stream, .fail] ∧ s0.drvState ≠ .streaming ∧ tp.wf = true ∧
    (placed .wake .resetting).seqPc.step = .wake ∧ (placed .mvalid .degraded).seqPc.step = .mvalid ∧
    (placed .close .programming).seqPc.step = scriptStep .close ∧
    (streaming []).drvState = .streaming ∧ (streaming []).seqPc.step = .stream :=
  ⟨ringOk_s0, rfl, rfl, rfl, by decide, by decide, by decide, rfl, rfl, rfl, rfl, rfl⟩

end Sys2Proof.Tests
end

section
/-! PROOFS. O11: the reset parameters meet every constraint of 00_scope.md R8, and the reset state under any such parameters
is safe (70_reset_and_hazards.md R900). -/

namespace Sys2Proof.Machine

open Sys2Proof.Safety

/-! ### The parameters -/

/-- The constraints that `wf_facts` takes a well-formed parameter set apart into are all there are (R8). -/
theorem wf_of_facts {p : Params} (hring : 2 ≤ p.rbN ∧ p.rbN ≤ 256) (hdiag : p.diagAddr.length = 5)
    (hrepair : p.seqRepair.length = 3) (hclose : 1 ≤ p.seqClose.length)
    (hfirst : p.seqClose.length < p.seqFirst.length) (hwords : ∀ w ∈ p.scriptWords, isScriptEntry w = true)
    (hspeed : 1 ≤ p.speedMax ∧ p.speedMax ≤ 127) (hverify : p.verifyAddr ≠ p.burstAddr)
    (hnot : p.burstAddr ∉ p.diagAddr) : p.wf = true := by
  have hall : p.scriptWords.all isScriptEntry = true := List.all_eq_true.mpr hwords
  have ring : ¬ (p.rbN < 2 ∨ 256 < p.rbN) := by omega
  have scripts : ¬ (p.seqRepair.length ≠ 3 ∨ p.seqClose.length < 1 ∨ p.seqFirst.length ≤ p.seqClose.length) := by omega
  have speed : ¬ (p.speedMax < 1 ∨ 127 < p.speedMax) := by omega
  have reads : ¬ (p.verifyAddr = p.burstAddr ∨ p.burstAddr ∈ p.diagAddr) := not_or.mpr ⟨hverify, hnot⟩
  have none : p.refusal = none := by
    rw [Params.refusal, if_neg ring, if_neg (fun n => n hdiag), if_neg scripts,
      if_neg (fun n => Bool.noConfusion (n.symm.trans hall)), if_neg speed, if_neg reads]
  rw [Params.wf, none]
  rfl

/-- Every script word of the reset parameters is built by `scriptWord`, so its bit 15 is 1 (30_encoding.md R307). -/
theorem openParams_scriptWords : ∀ w ∈ Config.openParams.scriptWords, isScriptEntry w = true := by
  have built : ∀ {α : Type} (entry : α → BitVec 15) (l : List α),
      ∀ w ∈ l.map (fun x => Config.scriptWord (entry x)), isScriptEntry w = true := by
    intro α entry l w hw
    obtain ⟨x, _, rfl⟩ := List.mem_map.mp hw
    exact scriptWord_entry _
  intro w hw
  simp only [Params.scriptWords, List.mem_append] at hw
  obtain (((((hw | hw) | hw) | hw) | hw) | hw) | hw := hw
  · exact built Config.openFirstEntry _ w hw
  · exact built Config.openRepairEntry _ w hw
  · exact built Config.openCloseEntry _ w hw
  all_goals exact built id _ w hw

/-- None of the diagnostic registers of the reset parameters is the burst register (log 18). -/
theorem openParams_burstAddr_notMem : Config.openParams.burstAddr ∉ Config.openParams.diagAddr := by
  intro hmem
  obtain ⟨i, _, hi⟩ := List.mem_map.mp hmem
  exact otherThan_ne _ _ hi

theorem openParams_wf : Config.openParams.wf = true := by
  apply wf_of_facts
  case hring => decide
  case hdiag => simp only [Config.openParams, List.length_map, List.length_range]
  case hrepair => simp only [Config.openParams, List.length_map, List.length_range]
  case hclose =>
    simp only [Config.openParams, List.length_map, List.length_range]
    exact Nat.le_add_left 1 Config.openCloseExtra
  case hfirst =>
    simp only [Config.openParams, List.length_map, List.length_range]
    omega
  case hwords => exact openParams_scriptWords
  case hspeed =>
    have below := Config.openSpeedMaxBelow.isLt
    simp only [Config.openParams]
    omega
  case hverify => exact otherThan_ne _ _
  case hnot => exact openParams_burstAddr_notMem

/-! ### The reset state -/

section
variable {p : Params} (h : p.wf = true)
include h

theorem ringOk_resetWith : RingOk (State.resetWith p) := by
  obtain ⟨⟨two, _⟩, _⟩ := wf_facts h
  have slots : 0 < p.rbN := by omega
  exact ⟨h, List.length_replicate, slots, slots⟩

theorem unitsOk_resetWith : UnitsOk (State.resetWith p) where
  params := h
  aux a := by cases a <;> exact ⟨Nat.zero_le _, fun owed => absurd owed (Nat.lt_irrefl 0)⟩
  speedLow := Nat.le_refl _
  speedHigh := by
    obtain ⟨_, _, _, _, _, _, ⟨low, _⟩, _⟩ := wf_facts h
    exact low
  stopped := Nat.zero_le _
  direction event := nomatch event
  scrollSteps _ hmem := nomatch hmem

omit h in
/-- Before the first `INIT` the driver is UNPOWERED at `S_IDLE`, both lines released (R900). -/
theorem driverOk_resetWith : DriverOk (State.resetWith p) where
  chipSelect := rfl
  resetLine := rfl
  agrees := rfl
  position := by show SeqStep.idle ≠ .mode; decide
  attempts := Nat.zero_le _
  attemptLeft _ := by show 0 < 60; decide
  powered hstep := absurd rfl hstep
  undecided _ := rfl
  repairing hstep := nomatch hstep
  notDegraded _ := rfl
  isDegraded hdrv := nomatch hdrv
  diagSize := rfl
  stopped hrun := nomatch hrun

theorem safeState_resetWith : SafeState (State.resetWith p) where
  ring := ringOk_resetWith h
  units := unitsOk_resetWith h
  driver := driverOk_resetWith
  observations := ⟨fun _ hmem => (nomatch hmem), fun _ hmem => (nomatch hmem)⟩

end

/-- Settles O11: the reset parameters are legal, and reset is safe under any legal parameters. -/
theorem resetIsSafe : Obligations.ResetIsSafe := ⟨openParams_wf, safeState_resetWith openParams_wf⟩

end Sys2Proof.Machine
end

section
/-! PROOFS. O18: no step takes back power, `BUS_CORRUPT`, a stopped loop or a shutdown request, or changes the parameters
(10_state.md R161, R162; 20_memory.md R237; 40_register_bus.md R428; 47_stimulus.md R759; 60_exceptions.md R873; log 4). One
lemma for each operation says so of that operation; `nothingUndone_exec` and `nothingUndone_step` put them together. -/

namespace Sys2Proof.Machine

/-- From `s` to `t` nothing was undone. It speaks of seven fields, so a proof of it about the state before an update of other
fields is, by definition, one about the state after it. -/
def NothingUndone (s t : State) : Prop :=
  (s.power = true → t.power = true) ∧ (s.busCorrupt = true → t.busCorrupt = true) ∧
  (s.runSensor = false → t.runSensor = false) ∧ (s.runButton = false → t.runButton = false) ∧
  (s.runScroll = false → t.runScroll = false) ∧ (s.shutdownReq = true → t.shutdownReq = true) ∧ t.params = s.params

theorem NothingUndone.refl (s : State) : NothingUndone s s := ⟨id, id, id, id, id, id, rfl⟩

theorem NothingUndone.trans {s t u : State} (h : NothingUndone s t) (k : NothingUndone t u) : NothingUndone s u := by
  obtain ⟨hPower, hCorrupt, hSensor, hButton, hScroll, hShutdown, hParams⟩ := h
  obtain ⟨kPower, kCorrupt, kSensor, kButton, kScroll, kShutdown, kParams⟩ := k
  exact ⟨kPower ∘ hPower, kCorrupt ∘ hCorrupt, kSensor ∘ hSensor, kButton ∘ hButton, kScroll ∘ hScroll,
    kShutdown ∘ hShutdown, kParams.trans hParams⟩

/-! ### Outcomes -/

/-- An operation that ended in a state answered it. -/
theorem toOutcome_eq_next {r : Except Stop State} {t : State} : toOutcome r = .next t ↔ r = .ok t := by
  cases r with
  | ok u => simp [toOutcome]
  | error e => cases e <;> simp [toOutcome]

/-! ### The five updates that write one of these fields -/

theorem nothingUndone_powerOn (s : State) : NothingUndone s { s with power := true } :=
  ⟨fun _ => rfl, id, id, id, id, id, rfl⟩

theorem nothingUndone_corrupt (s : State) : NothingUndone s { s with busCorrupt := true } :=
  ⟨id, fun _ => rfl, id, id, id, id, rfl⟩

theorem nothingUndone_corruptIf (short : Bool) (s : State) : NothingUndone s (corruptIf short s) :=
  ⟨id, fun h => by simp only [corruptIf, h, Bool.true_or], id, id, id, id, rfl⟩

theorem nothingUndone_stopLoop (l : Loop) (s : State) : NothingUndone s (stopLoop l s) := by
  cases l with
  | sensor => exact ⟨id, id, fun _ => rfl, id, id, id, rfl⟩
  | button => exact ⟨id, id, id, fun _ => rfl, id, id, rfl⟩
  | scroll => exact ⟨id, id, id, id, fun _ => rfl, id, rfl⟩

theorem nothingUndone_requestShutdown (s : State) : NothingUndone s (requestShutdown s) :=
  ⟨id, id, id, id, id, fun _ => rfl, rfl⟩

/-! ### Updates that write none of them -/

section
variable {s t : State}

theorem nothingUndone_askWrite : NothingUndone s (askWrite t).2 ↔ NothingUndone s t := Iff.rfl
theorem nothingUndone_nextEntry : NothingUndone s (nextEntry t) ↔ NothingUndone s t := Iff.rfl
theorem nothingUndone_nextAttempt : NothingUndone s (nextAttempt t) ↔ NothingUndone s t := Iff.rfl
theorem nothingUndone_storeDiag {b : Byte} : NothingUndone s (storeDiag b t) ↔ NothingUndone s t := Iff.rfl
theorem nothingUndone_finishItem : NothingUndone s (finishItem t) ↔ NothingUndone s t := Iff.rfl
theorem nothingUndone_setRet {r : Ret} : NothingUndone s (setRet r t) ↔ NothingUndone s t := Iff.rfl
theorem nothingUndone_raiseEvent {e : Event} : NothingUndone s (raiseEvent e t) ↔ NothingUndone s t := Iff.rfl
theorem nothingUndone_sendBytes {bytes : List Byte} : NothingUndone s (sendBytes bytes t) ↔ NothingUndone s t := Iff.rfl
theorem nothingUndone_gotoStep {st : SeqStep} : NothingUndone s (gotoStep st t) ↔ NothingUndone s t := Iff.rfl
theorem nothingUndone_advanceRead : NothingUndone s (advanceRead t) ↔ NothingUndone s t := Iff.rfl
theorem nothingUndone_goTo {p : SensorPos} : NothingUndone s (goTo p t) ↔ NothingUndone s t := Iff.rfl
theorem nothingUndone_after_advance {n : Nat} : NothingUndone (advance n s) t ↔ NothingUndone s t := Iff.rfl
theorem nothingUndone_fatalFault : NothingUndone s (fatalFault t) ↔ NothingUndone s t := Iff.rfl

end

/-! ### Handlers and the steps of the other agents -/

theorem nothingUndone_drivePin (p : Pin) (l : Level) (s : State) : NothingUndone s (drivePin p l s) := by
  simp only [drivePin]
  split <;> exact .refl s

theorem nothingUndone_mainEdge (b : MainButton) (s : State) : NothingUndone s (mainEdge b s) := by
  simp only [mainEdge]
  split
  · exact .refl s
  · split <;> exact .refl s

theorem nothingUndone_auxEdge (a : AuxButton) (s : State) : NothingUndone s (auxEdge a s) := by
  simp only [auxEdge]
  split
  · exact .refl s
  · split <;> exact .refl s

theorem nothingUndone_handler (p : Pin) (s : State) : NothingUndone s (handler p s) := by
  cases p with
  | lNo | lNc | rNo | rNc => exact nothingUndone_mainEdge _ s
  | m | s4 | s5 => exact nothingUndone_auxEdge _ s
  | scrA | scrB => exact .refl s

theorem nothingUndone_handlerEntry (p : Pin) (s : State) : NothingUndone s (handlerEntry p s) :=
  nothingUndone_handler p (setPending p false s)

theorem nothingUndone_dispatch {p : Pin} {s t : State} (h : dispatch p s = .ok t) : NothingUndone s t := by
  simp only [dispatch] at h
  split at h
  · cases h; exact nothingUndone_handlerEntry p s
  · cases h

theorem nothingUndone_auxConfirm (a : AuxButton) (s : State) : NothingUndone s (auxConfirm a s) := by
  simp only [auxConfirm]
  split
  · exact .refl s
  · split
    · exact .refl s
    · split <;> exact .refl s

theorem nothingUndone_latchTake (b : MainButton) (s : State) : NothingUndone s (latchTake b s).2 := by
  simp only [latchTake]
  split <;> exact .refl s

theorem nothingUndone_latchRelease (b : MainButton) (s : State) : NothingUndone s (latchRelease b s) := by
  simp only [latchRelease]
  split <;> exact .refl s

theorem nothingUndone_buttonAtom (st : ButtonStep) (s : State) : NothingUndone s (buttonAtom st s).1 := by
  cases st with
  | confirm a => exact nothingUndone_auxConfirm a s
  | latchTake b => exact nothingUndone_latchTake b s
  | latchRelease b => exact nothingUndone_latchRelease b s
  | latchReport _ | auxTake _ | auxReport _ => exact .refl s

theorem nothingUndone_scrollAtom (st : ScrollStep) (s : State) : NothingUndone s (scrollAtom st s).1 := by
  cases st <;> exact .refl s

/-- The button task's own step stops its loop at most, at the end of a sleep (46_poll_loop.md R730). -/
theorem nothingUndone_buttonStep (s : State) : NothingUndone s (buttonStep s) := by
  simp only [buttonStep]
  split
  · split
    · exact nothingUndone_buttonAtom _ s
    · split
      · exact .refl s
      · split
        · exact .refl s
        · split
          · exact nothingUndone_stopLoop .button _
          · exact .refl s
  · exact .refl s

theorem nothingUndone_scrollStep (s : State) : NothingUndone s (scrollStep s) := by
  simp only [scrollStep]
  split
  · split
    · exact nothingUndone_scrollAtom _ s
    · split
      · exact .refl s
      · split
        · exact .refl s
        · split
          · exact nothingUndone_stopLoop .scroll _
          · exact .refl s
  · exact .refl s

theorem nothingUndone_actStep (who : Agent) (a : Act) (s : State) : NothingUndone s (actStep who a s) := by
  cases a with
  | pin p l => exact nothingUndone_drivePin p l s
  | isr p =>
    simp only [actStep]
    split
    · exact nothingUndone_handlerEntry p s
    · exact .refl s
  | tick n h => exact .refl s
  | shutdownReq => exact nothingUndone_requestShutdown s
  | button =>
    simp only [actStep]
    split
    · exact .refl s
    · exact nothingUndone_buttonStep s
  | scroll =>
    simp only [actStep]
    split
    · exact .refl s
    · exact nothingUndone_scrollStep s

theorem nothingUndone_yield (who : Agent) (s : State) : NothingUndone s (yield who s) :=
  yield_induction who (fun _ _ h => h) (fun a t h => h.trans (nothingUndone_actStep who a t)) (.refl s)

theorem nothingUndone_sleepBoundary (l : Loop) (s : State) : NothingUndone s (sleepBoundary l s) := by
  simp only [sleepBoundary]
  split
  · exact nothingUndone_stopLoop l s
  · exact .refl s

/-! ### Waits and transactions -/

theorem nothingUndone_waitFrom (who : Agent) (t0 : Time) (T : Nat) (s : State) :
    NothingUndone s (waitFrom who t0 T s) :=
  nothingUndone_yield who s

theorem nothingUndone_wait (who : Agent) (T : Nat) (s : State) : NothingUndone s (wait who T s) :=
  nothingUndone_waitFrom who s.now T s

/-- A bus wait sets `BUS_CORRUPT` at most (40_register_bus.md R428). -/
theorem nothingUndone_busWaitFrom (t0 : Time) (T : Nat) (s : State) : NothingUndone s (busWaitFrom t0 T s) := by
  simp only [busWaitFrom]
  split
  · exact (nothingUndone_yield .sensor s).trans (nothingUndone_corrupt _)
  · exact nothingUndone_yield .sensor s

theorem nothingUndone_busAssert (s : State) : NothingUndone s (busAssert s) :=
  nothingUndone_busWaitFrom (lastEnd s) _ s

theorem nothingUndone_busSend (bytes : List Byte) (s : State) : NothingUndone s (busSend bytes s) :=
  nothingUndone_busWaitFrom s.now _ s

theorem nothingUndone_busRelease (kind : BusKind) (s : State) : NothingUndone s (busRelease kind s) :=
  (nothingUndone_yield .sensor s).trans (nothingUndone_yield .sensor (endTransaction kind _))

theorem nothingUndone_askByte {s t : State} {r : Answer Byte} (h : askByte s = .ok (r, t)) : NothingUndone s t := by
  simp only [askByte] at h
  split at h <;> cases h <;> exact .refl s

theorem nothingUndone_askBurst {s t : State} {r : Answer (List Byte)} (h : askBurst s = .ok (r, t)) :
    NothingUndone s t := by
  simp only [askBurst] at h
  split at h
  · cases h
  · split at h <;> cases h
    exact .refl s
  · cases h; exact .refl s
  · cases h

/-- A transaction up to the bytes it sends. -/
theorem nothingUndone_opened (bytes : List Byte) (s : State) : NothingUndone s (busSend bytes (busAssert s)) :=
  (nothingUndone_busAssert s).trans (nothingUndone_busSend bytes _)

theorem nothingUndone_busWrite (a : Addr) (v : Byte) (s : State) : NothingUndone s (busWrite a v s).2 := by
  have sent := nothingUndone_opened [commandByte Config.dirWrite a, v] s
  exact (nothingUndone_askWrite.mpr sent).trans (nothingUndone_busRelease .write _)

theorem nothingUndone_busRead {a : Addr} {s t : State} {r : Answer Byte} (h : busRead a s = .ok (r, t)) :
    NothingUndone s t := by
  simp only [busRead] at h
  split at h
  · cases h
  · split at h
    · cases h
    · rename_i asked
      cases h
      exact (nothingUndone_opened _ s).trans <| (nothingUndone_busWaitFrom _ _ _).trans <|
        (nothingUndone_askByte asked).trans (nothingUndone_busRelease .read _)

theorem nothingUndone_busBurst {s t : State} {r : Answer (List Byte)} {ts : Time} (h : busBurst s = .ok (r, ts, t)) :
    NothingUndone s t := by
  simp only [busBurst] at h
  split at h
  · cases h
  · rename_i asked
    cases h
    exact (nothingUndone_opened _ s).trans <| (nothingUndone_busWaitFrom _ _ _).trans <|
      (nothingUndone_askBurst asked).trans (nothingUndone_busRelease .burst _)

theorem nothingUndone_issueWrite {a : Addr} {v : Byte} {s t : State} (h : issueWrite a v s = .ok t) :
    NothingUndone s t := by
  simp only [issueWrite] at h
  split at h <;> cases h
  exact nothingUndone_setRet.mpr (nothingUndone_busWrite a v s)

theorem nothingUndone_issueRead {a : Addr} {s t : State} (h : issueRead a s = .ok t) : NothingUndone s t := by
  simp only [issueRead] at h
  split at h
  · split at h
    · cases h
    · rename_i read
      cases h; exact nothingUndone_setRet.mpr (nothingUndone_busRead read)
  · cases h

theorem nothingUndone_issueBurst {a : Addr} {n : Nat} {s t : State} (h : issueBurst a n s = .ok t) :
    NothingUndone s t := by
  simp only [issueBurst] at h
  split at h
  · cases h
  · split at h
    · split at h
      · cases h
      · rename_i burst
        cases h; exact nothingUndone_setRet.mpr (nothingUndone_busBurst burst)
    · cases h

/-! ### The button and scroll tasks -/

theorem nothingUndone_latchPoll (b : MainButton) (s : State) : NothingUndone s (latchPoll b s) := by
  have taken := nothingUndone_latchTake b s
  simp only [latchPoll]
  split
  · exact taken.trans <| (nothingUndone_yield .button _).trans <|
      (nothingUndone_yield .button (reportButtons _)).trans (nothingUndone_latchRelease b _)
  · exact taken

theorem nothingUndone_auxPoll (a : AuxButton) (s : State) : NothingUndone s (auxPoll a s) := by
  simp only [auxPoll]
  split
  · exact nothingUndone_yield .button (auxTake a s).2
  · exact .refl s

theorem nothingUndone_buttonCall (st : ButtonStep) (s : State) : NothingUndone s (buttonCall st s) := by
  cases st with
  | confirm a => exact nothingUndone_auxConfirm a s
  | latchTake b => exact nothingUndone_latchPoll b s
  | latchRelease b => exact nothingUndone_latchRelease b s
  | auxTake a => exact nothingUndone_auxPoll a s
  | latchReport _ | auxReport _ => exact .refl s

theorem nothingUndone_buttonCalls (sts : List ButtonStep) (s : State) : NothingUndone s (buttonCalls sts s) := by
  induction sts generalizing s with
  | nil => exact .refl s
  | cons st sts ih => exact (nothingUndone_buttonCall st s).trans <| (nothingUndone_yield .button _).trans (ih _)

theorem nothingUndone_scrollFinish (ev : Bool) (d : ScrollDir) (s : State) :
    NothingUndone s (scrollFinish ev d s) := by
  have adjusted : NothingUndone s (speedAdjust ev (yield .scroll s)) := nothingUndone_yield .scroll s
  simp only [scrollFinish]
  split
  · exact adjusted.trans (nothingUndone_yield .scroll _)
  · exact adjusted

theorem nothingUndone_scrollPoll (s : State) : NothingUndone s (scrollPoll s) :=
  nothingUndone_scrollFinish s.scEvent s.scDir (scrollTake s).2.2

theorem nothingUndone_scrollCall (st : ScrollStep) (s : State) : NothingUndone s (scrollCall st s) := by
  cases st with
  | take => exact nothingUndone_scrollPoll s
  | adjust ev d => exact nothingUndone_scrollFinish ev d s
  | report d => exact .refl s

theorem nothingUndone_scrollCalls (sts : List ScrollStep) (s : State) : NothingUndone s (scrollCalls sts s) := by
  induction sts generalizing s with
  | nil => exact .refl s
  | cons st sts ih => exact (nothingUndone_scrollCall st s).trans (ih _)

section
variable {sleep : State → State} (hsleep : ∀ s, NothingUndone s (sleep s)) {s t : State}
include hsleep

theorem nothingUndone_buttonCycleWith (h : buttonCycleWith sleep s = .ok t) : NothingUndone s t := by
  simp only [buttonCycleWith] at h
  split at h <;> cases h
  exact (nothingUndone_buttonCalls (buttonToDo s) (buttonIdle s)).trans <| (hsleep _).trans
    (nothingUndone_sleepBoundary .button _)

theorem nothingUndone_scrollCycleWith (h : scrollCycleWith sleep s = .ok t) : NothingUndone s t := by
  simp only [scrollCycleWith] at h
  split at h <;> cases h
  exact (nothingUndone_scrollCalls (scrollToDo s) (scrollIdle s)).trans <| (hsleep _).trans
    (nothingUndone_sleepBoundary .scroll _)

end

/-! ### The motion ring -/

theorem nothingUndone_pushSample {x : Sample} {s t : State} (h : pushSample x s = .ok t) : NothingUndone s t := by
  obtain ⟨_, _, _, _, rfl, _⟩ := pushSample_kept h
  exact .refl s

theorem nothingUndone_writeSlot {i : Nat} {x : Sample} {s t : State} (h : writeSlot i x s = .ok t) :
    NothingUndone s t := by
  simp only [writeSlot] at h
  split at h <;> cases h
  exact .refl s

theorem nothingUndone_mergeOldest {s t : State} (h : mergeOldest s = .ok t) : NothingUndone s t := by
  simp only [mergeOldest] at h
  split at h
  · split at h
    · rename_i written
      have undone := nothingUndone_writeSlot written
      cases h; exact undone
    · cases h
  · cases h
  · cases h

theorem nothingUndone_emitAll (rs : List Report) (s : State) : NothingUndone s (emitAll rs s) := by
  induction rs generalizing s with
  | nil => exact .refl s
  | cons r rs ih => exact (nothingUndone_yield .sensor (emitReport r s)).trans (ih _)

theorem nothingUndone_emitMotion (x : Sample) (s : State) : NothingUndone s (emitMotion x s) :=
  nothingUndone_emitAll (sampleReports x) s

theorem nothingUndone_drainLoop (n : Nat) {s t : State} (h : drainLoop n s = .ok t) : NothingUndone s t := by
  induction n generalizing s with
  | zero => cases h; exact .refl _
  | succ n ih =>
    simp only [drainLoop] at h
    split at h
    · cases h; exact .refl _
    · split at h
      · cases h
      · exact (nothingUndone_advanceRead.mpr (nothingUndone_emitMotion _ s)).trans <|
          (nothingUndone_yield .sensor _).trans (ih h)

/-! ### The sensor driver -/

theorem nothingUndone_replayEntry (a : Addr) (v : Byte) (s : State) : NothingUndone s (replayEntry a v s).2 := by
  have wrote := nothingUndone_busWrite a v s
  simp only [replayEntry]
  split
  · exact nothingUndone_nextEntry.mpr wrote
  · exact nothingUndone_fatalFault.mpr wrote

theorem nothingUndone_replayWords (ws : List (BitVec 16)) {s t : State} {b : Bool} (h : replayWords ws s = .ok (b, t)) :
    NothingUndone s t := by
  induction ws generalizing s with
  | nil => cases h; exact .refl _
  | cons w ws ih =>
    simp only [replayWords] at h
    split at h
    · rename_i a v _
      have sent := nothingUndone_replayEntry a v s
      split at h
      · exact sent.trans (ih h)
      · cases h; exact sent
    · cases h
    · cases h

theorem nothingUndone_replayThen {script : List (BitVec 16)} {after : State → State}
    (hafter : ∀ s, NothingUndone s (after s)) {s t : State} (h : replayThen script after s = .ok t) :
    NothingUndone s t := by
  simp only [replayThen, replayScript] at h
  split at h
  · cases h
  · rename_i replayed
    cases h; exact (nothingUndone_replayWords _ replayed).trans (hafter _)
  · rename_i replayed
    cases h; exact nothingUndone_replayWords _ replayed

theorem nothingUndone_verifyPoll (n : Nat) {s t : State} (h : verifyPoll n s = .ok t) : NothingUndone s t := by
  induction n generalizing s with
  | zero => cases h; exact .refl _
  | succ n ih =>
    have waited := nothingUndone_waitFrom .sensor (lastEnd s) Config.tVerify s
    simp only [verifyPoll] at h
    split at h
    · cases h
    · rename_i read
      have answered := nothingUndone_nextAttempt.mpr (waited.trans (nothingUndone_busRead read))
      cases h; exact nothingUndone_fatalFault.mpr answered
    · rename_i read
      have answered := nothingUndone_nextAttempt.mpr (waited.trans (nothingUndone_busRead read))
      split at h
      · cases h; exact answered
      · exact answered.trans (ih h)

theorem nothingUndone_diagReads (addrs : List Addr) {s t : State} (h : diagReads addrs s = .ok t) :
    NothingUndone s t := by
  induction addrs generalizing s with
  | nil => cases h; exact .refl _
  | cons a addrs ih =>
    simp only [diagReads] at h
    split at h
    · cases h
    · rename_i read
      cases h; exact nothingUndone_fatalFault.mpr (nothingUndone_busRead read)
    · rename_i b u read
      have stored := nothingUndone_nextEntry.mpr (nothingUndone_storeDiag (b := b) |>.mpr (nothingUndone_busRead read))
      exact stored.trans (ih h)

theorem nothingUndone_seqWake (s : State) : NothingUndone s (seqWake s) :=
  (nothingUndone_powerOn s).trans (nothingUndone_wait .sensor s.params.tWake _)

theorem nothingUndone_seqFirst {s t : State} (h : seqFirst s = .ok t) : NothingUndone s t :=
  nothingUndone_replayThen (after := gotoFresh .verify) (fun u => .refl u) h

theorem nothingUndone_seqRepair {s t : State} (h : seqRepair s = .ok t) : NothingUndone s t :=
  nothingUndone_replayThen (after := gotoStep .close) (fun u => .refl u) h

theorem nothingUndone_seqClose {s t : State} (h : seqClose s = .ok t) : NothingUndone s t :=
  nothingUndone_replayThen (after := closed) (fun u => .refl u) h

/-- The bring-up's steps switch the power on at most (41_sensor_driver.md R452). -/
theorem nothingUndone_seqAdvance {s t : State} (h : seqAdvance s = .ok t) : NothingUndone s t := by
  cases step : s.seqPc.step <;> simp only [seqAdvance, step] at h
  case wake => cases h; exact nothingUndone_seqWake s
  case ncsPulse => cases h; exact nothingUndone_wait .sensor s.params.tNcsPulse (setNcs false s)
  case resetPulse => cases h; exact nothingUndone_wait .sensor s.params.tResetPulse (setNreset false s)
  case settle => cases h; exact nothingUndone_wait .sensor s.params.tResetSettle s
  case first => exact nothingUndone_seqFirst h
  case verify => exact nothingUndone_verifyPoll _ h
  case repair => exact nothingUndone_seqRepair h
  case close => exact nothingUndone_seqClose h
  case diag => exact nothingUndone_diagReads _ h
  case mvalid => cases h; exact nothingUndone_waitFrom .sensor (lastEnd s) s.params.tMotionValid s
  case idle | stream | mode | fail => cases h; exact .refl s

theorem nothingUndone_seqRun (n : Nat) {s t : State} (h : seqRun n s = .ok t) : NothingUndone s t := by
  induction n generalizing s with
  | zero => cases h; exact .refl _
  | succ n ih =>
    simp only [seqRun] at h
    split at h
    · cases h
    · rename_i advanced
      exact (nothingUndone_seqAdvance advanced).trans (ih h)

theorem nothingUndone_atStep {st : SeqStep} {run : State → Except Stop State} {s t : State}
    (hrun : s.seqPc.step = st → run s = .ok t → NothingUndone s t) (h : atStep st run s = .ok t) :
    NothingUndone s t := by
  simp only [atStep] at h
  split at h
  · rename_i here
    exact hrun here h
  · cases h

theorem nothingUndone_captureBurst {s t : State} {r : Option Sample} (h : captureBurst s = .ok (r, t)) :
    NothingUndone s t := by
  simp only [captureBurst] at h
  split at h
  · cases h
  · rename_i burst
    cases h; exact nothingUndone_raiseEvent.mpr (nothingUndone_busBurst burst)
  · rename_i burst
    cases h; exact nothingUndone_busBurst burst

theorem nothingUndone_modeCommand {m : OpMode} {s t : State} (h : modeCommand m s = .ok t) : NothingUndone s t := by
  simp only [modeCommand] at h
  split at h
  · cases h
  · split at h
    · have switched : NothingUndone (gotoStep .mode s) t :=
        nothingUndone_replayThen (after := setMode m) (fun u => .refl u) h
      exact switched
    · cases h

theorem nothingUndone_initAll {s t : State} (h : initAll s = .ok t) : NothingUndone s t := by
  simp only [initAll] at h
  split at h
  · cases h
  · split at h
    · split at h
      · cases h
      · rename_i broughtUp
        cases h
        exact (nothingUndone_seqRun 10 broughtUp).trans (nothingUndone_sleepBoundary .sensor _)
    · cases h

/-- Each step of the bring-up issued on its own is the sequencer's step at that place (41_sensor_driver.md R450). -/
theorem nothingUndone_ownStep {st : SeqStep} {run : State → Except Stop State} {s t : State}
    (hrun : s.seqPc.step = st → run s = seqAdvance s) (h : atStep st run s = .ok t) : NothingUndone s t :=
  nothingUndone_atStep (fun here k => nothingUndone_seqAdvance (hrun here ▸ k)) h

theorem nothingUndone_execReplay {sc : ScriptId} {s t : State} (h : execReplay sc s = .next t) : NothingUndone s t := by
  replace h := toOutcome_eq_next.mp h
  cases sc with
  | first => exact nothingUndone_atStep (fun _ => nothingUndone_seqFirst) h
  | repair | close | mode =>
    exact nothingUndone_atStep (fun _ k => nothingUndone_replayThen (after := id) (fun u => .refl u) k) h

theorem nothingUndone_execCaptureBurst {s t : State} (h : execCaptureBurst s = .next t) : NothingUndone s t := by
  replace h := toOutcome_eq_next.mp h
  split at h
  · split at h
    · cases h
    · rename_i captured
      cases h; exact nothingUndone_setRet.mpr (nothingUndone_captureBurst captured)
  · cases h

/-! ### The sensor loop -/

theorem nothingUndone_capturePhase {s t : State} (h : capturePhase s = .ok t) : NothingUndone s t := by
  simp only [capturePhase] at h
  split at h
  · split at h
    · cases h
    · rename_i captured
      cases h; exact nothingUndone_captureBurst captured
    · rename_i captured
      exact (nothingUndone_captureBurst captured).trans (nothingUndone_pushSample h)
  · cases h; exact .refl s

theorem nothingUndone_sensorWork {s t : State} (h : sensorWork s = .ok t) : NothingUndone s t := by
  simp only [sensorWork] at h
  split at h
  · cases h
  · rename_i drained
    exact (nothingUndone_yield .sensor (startCycle s)).trans <| (nothingUndone_drainLoop _ drained).trans <|
      (nothingUndone_yield .sensor _).trans (nothingUndone_capturePhase h)

theorem nothingUndone_sensorSleep (s : State) : NothingUndone s (sensorSleep s) := by
  simp only [sensorSleep]
  split
  · exact nothingUndone_wait .sensor _ s
  · exact .refl s

theorem nothingUndone_sensorCycleWith {sleep : State → State} (hsleep : ∀ s, NothingUndone s (sleep s)) {s t : State}
    (h : sensorCycleWith sleep s = .ok t) : NothingUndone s t := by
  simp only [sensorCycleWith] at h
  split at h
  · cases h
  · split at h
    · split at h
      · cases h
      · rename_i worked
        cases h
        exact (nothingUndone_sensorWork worked).trans <| (nothingUndone_yield .sensor _).trans <| (hsleep _).trans <|
          (nothingUndone_yield .sensor _).trans (nothingUndone_sleepBoundary .sensor _)
    · cases h

theorem nothingUndone_sensorTask {s t : State} (h : sensorTask s = .ok t) : NothingUndone s t := by
  simp only [sensorTask] at h
  split at h
  · cases h
  · split at h
    · cases h
    · split at h
      · exact nothingUndone_sensorCycleWith nothingUndone_sensorSleep h
      · split at h
        · cases h
        · rename_i advanced
          have undone := nothingUndone_seqAdvance advanced
          cases h
          split
          · exact undone.trans (nothingUndone_sleepBoundary .sensor _)
          · exact undone

/-! ### The sensor task one rule step at a time -/

theorem nothingUndone_endWait (t0 : Time) (T : Nat) (p : SensorPos) (s : State) :
    NothingUndone s (endWait t0 T p s) := by
  rcases endWait_cases t0 T p s with h | ⟨_, h⟩ <;> rw [h] <;> exact .refl s

theorem nothingUndone_endBusWait (t0 : Time) (T : Nat) (p : SensorPos) (s : State) :
    NothingUndone s (endBusWait t0 T p s) := by
  rcases endBusWait_cases t0 T p s with h | h <;> rw [h]
  · exact .refl s
  · exact nothingUndone_corruptIf _ (dropSlack s)

theorem nothingUndone_openCall {c : BusCall} {s t : State} (h : openCall c s = .ok t) : NothingUndone s t := by
  obtain ⟨rfl, _⟩ := openCall_ok h
  exact .refl s

theorem nothingUndone_nextWrite {sc : ScriptId} {s t : State} (h : nextWrite sc s = .ok t) : NothingUndone s t := by
  rcases nextWrite_ok h with ⟨_, _, rfl⟩ | rfl <;> exact .refl s

theorem nothingUndone_nextDiag {s t : State} (h : nextDiag s = .ok t) : NothingUndone s t := by
  rcases nextDiag_ok h with ⟨_, rfl⟩ | rfl <;> exact .refl s

theorem nothingUndone_nextPoll (s : State) : NothingUndone s (nextPoll s) := by
  simp only [nextPoll]
  split <;> exact .refl s

theorem nothingUndone_sendCall (c : BusCall) (ts : Time) (s : State) : NothingUndone s (sendCall c ts s) := by
  have sent : NothingUndone s (sendBytes (callBytes s.params c) s) := nothingUndone_sendBytes.mpr (.refl s)
  cases c with
  | entry sc a v => exact nothingUndone_goTo.mpr (nothingUndone_askWrite.mpr sent)
  | verify | diag | capture => exact nothingUndone_goTo.mpr sent

theorem nothingUndone_answerCall {c : BusCall} {ts : Time} {s t : State} (h : answerCall c ts s = .ok t) :
    NothingUndone s t := by
  cases c with
  | entry sc a v => cases h; exact .refl s
  | verify | diag =>
    simp only [answerCall] at h
    split at h
    · cases h
    · rename_i asked
      cases h; exact nothingUndone_goTo.mpr (nothingUndone_askByte asked)
    · rename_i asked
      cases h; exact nothingUndone_goTo.mpr (nothingUndone_askByte asked)
  | capture =>
    simp only [answerCall] at h
    split at h
    · cases h
    · rename_i asked
      cases h; exact nothingUndone_goTo.mpr (nothingUndone_askBurst asked)

theorem nothingUndone_failCall (sc : Option ScriptId) (s : State) : NothingUndone s (failCall sc s) :=
  nothingUndone_fatalFault.mpr (.refl s)

theorem nothingUndone_afterCall {c : BusCall} {ts : Time} {r : Answer (List Byte)} {s t : State}
    (h : afterCall c ts r s = .ok t) : NothingUndone s t := by
  cases c <;> cases r
  case entry.ok =>
    have undone : NothingUndone (nextEntry s) t := nothingUndone_nextWrite h
    exact undone
  case verify.ok =>
    simp only [afterCall] at h
    split at h
    · cases h; exact nothingUndone_goTo.mpr (nothingUndone_gotoStep.mpr (nothingUndone_nextAttempt.mpr (.refl s)))
    · cases h; exact nothingUndone_nextPoll (nextAttempt s)
  case diag.ok bytes =>
    have undone : NothingUndone (nextEntry (storeDiag (bytes.headD 0) s)) t := nothingUndone_nextDiag h
    exact undone
  case capture.ok =>
    simp only [afterCall] at h
    split at h <;> cases h <;> exact .refl s
  case entry.fault | diag.fault => cases h; exact nothingUndone_failCall _ s
  case verify.fault => cases h; exact nothingUndone_failCall none (nextAttempt s)
  case capture.fault => cases h; exact .refl s

/-- A step of a transaction sets `BUS_CORRUPT` at most, at the end of a wait (40_register_bus.md R428). -/
theorem nothingUndone_callStep {c : BusCall} {ph : BusPhase} {s t : State} (h : callStep c ph s = .ok t) :
    NothingUndone s t := by
  cases ph with
  | gap _ | settle _ | delay _ _ => cases h; exact nothingUndone_endBusWait _ _ _ s
  | assert | release _ _ => cases h; exact .refl s
  | send ts => cases h; exact nothingUndone_sendCall c ts s
  | answer ts => exact nothingUndone_answerCall h
  | returned ts r => exact nothingUndone_afterCall h

theorem nothingUndone_drainStep {s t : State} (h : drainStep s = .ok t) : NothingUndone s t := by
  simp only [drainStep] at h
  split at h
  · cases h; exact .refl s
  · split at h <;> cases h
    exact .refl s

theorem nothingUndone_pushStep {x : Sample} {s t : State} (h : pushStep x s = .ok t) : NothingUndone s t := by
  simp only [pushStep] at h
  split at h
  · cases h
  · rename_i pushed
    cases h; exact nothingUndone_goTo.mpr (nothingUndone_pushSample pushed)

theorem nothingUndone_pulseEndStep (s : State) : NothingUndone s (pulseEndStep s) := by
  simp only [pulseEndStep]
  split <;> exact .refl s

theorem nothingUndone_leaveStep (s : State) : NothingUndone s (leaveStep s) := by
  simp only [leaveStep]
  split <;> exact .refl s

theorem nothingUndone_beginStep {s t : State} (h : beginStep s = .ok t) : NothingUndone s t := by
  cases step : s.seqPc.step <;> simp only [beginStep, step] at h
  case wake => cases h; exact nothingUndone_powerOn s
  case first | repair | close => exact nothingUndone_nextWrite h
  case verify => cases h; exact nothingUndone_nextPoll s
  case diag => exact nothingUndone_nextDiag h
  case mode => cases h
  all_goals cases h; exact .refl s

theorem nothingUndone_sensorStep {s t : State} (h : sensorStep s = .ok t) : NothingUndone s t := by
  simp only [sensorStep] at h
  split at h
  · cases h
  cases pos : s.sensorPos <;> simp only [pos] at h
  case idle => exact nothingUndone_beginStep h
  case timed | sleeping => cases h; exact nothingUndone_endWait _ _ _ s
  case pulseEnd => cases h; exact nothingUndone_pulseEndStep s
  case leave => cases h; exact nothingUndone_leaveStep s
  case pollWait =>
    split at h
    · cases h; exact .refl s
    · have undone : NothingUndone (dropSlack s) t := nothingUndone_openCall h
      exact undone
  case bus => exact nothingUndone_callStep h
  case drain => exact nothingUndone_drainStep h
  case capture =>
    split at h
    · exact nothingUndone_openCall h
    · cases h; exact .refl s
  case push => exact nothingUndone_pushStep h
  case boundary => cases h; exact nothingUndone_sleepBoundary .sensor s
  case switched | emit | advance | sleep => cases h; exact .refl s

/-! ### Stimuli, board commands, instructions -/

theorem nothingUndone_boundaryIf (there : Bool) (l : Loop) (s : State) : NothingUndone s (boundaryIf there l s) := by
  simp only [boundaryIf]
  split
  · exact nothingUndone_sleepBoundary l s
  · exact .refl s

/-- `SHUT` sets the request and stops loops (47_stimulus.md R759). -/
theorem nothingUndone_execShut {s t : State} (h : execShut s = .next t) : NothingUndone s t := by
  cases h
  exact (nothingUndone_requestShutdown s).trans <| (nothingUndone_boundaryIf _ .sensor _).trans <|
    (nothingUndone_boundaryIf _ .button _).trans (nothingUndone_boundaryIf _ .scroll _)

theorem nothingUndone_execTickms (k : Nat) {s t : State} (h : execTickms k s = .next t) : NothingUndone s t := by
  induction k generalizing s with
  | zero => cases h; exact .refl _
  | succ k ih =>
    simp only [execTickms] at h
    exact nothingUndone_after_advance.mp (ih h)

theorem nothingUndone_boardCommand {c : BoardCommand} {s t : State} (h : boardCommand c s = .ok t) :
    NothingUndone s t := by
  simp only [boardCommand] at h
  split at h
  · cases h
  cases c with
  | init =>
    simp only [startInit] at h
    split at h
    · cases h
    · split at h <;> cases h
      exact .refl s
  | mode m => exact nothingUndone_modeCommand h
  | startMode m =>
    simp only [startMode] at h
    split at h
    · cases h
    · split at h
      · have undone : NothingUndone (gotoStep .mode s) t := nothingUndone_nextWrite h
        exact undone
      · cases h

theorem nothingUndone_exec {i : Instr} {s t : State} (h : exec i s = .next t) : NothingUndone s t := by
  cases i <;> simp only [exec] at h
  case tWrite | busWrite => exact nothingUndone_issueWrite (toOutcome_eq_next.mp h)
  case tRead | busRead => exact nothingUndone_issueRead (toOutcome_eq_next.mp h)
  case tBurst | busBurst => exact nothingUndone_issueBurst (toOutcome_eq_next.mp h)
  case script =>
    replace h := toOutcome_eq_next.mp h
    split at h <;> cases h
    exact nothingUndone_replayEntry _ _ s
  case isr | handlerEntry => exact nothingUndone_dispatch (toOutcome_eq_next.mp h)
  case btask => exact nothingUndone_buttonCycleWith .refl (toOutcome_eq_next.mp h)
  case stask => exact nothingUndone_scrollCycleWith .refl (toOutcome_eq_next.mp h)
  case scycle => exact nothingUndone_sensorCycleWith .refl (toOutcome_eq_next.mp h)
  case buttonCycle => exact nothingUndone_buttonCycleWith (nothingUndone_wait _ _) (toOutcome_eq_next.mp h)
  case scrollCycle => exact nothingUndone_scrollCycleWith (nothingUndone_wait _ _) (toOutcome_eq_next.mp h)
  case sensorCycle => exact nothingUndone_sensorCycleWith nothingUndone_sensorSleep (toOutcome_eq_next.mp h)
  case initStim => exact nothingUndone_initAll (toOutcome_eq_next.mp h)
  case mode | modeSwitch => exact nothingUndone_modeCommand (toOutcome_eq_next.mp h)
  case shut => exact nothingUndone_execShut h
  case tickms k => exact nothingUndone_execTickms k h
  case pusht | push => exact nothingUndone_pushSample (toOutcome_eq_next.mp h)
  case merge => exact nothingUndone_mergeOldest (toOutcome_eq_next.mp h)
  case draint | drain => exact nothingUndone_drainLoop _ (toOutcome_eq_next.mp h)
  case emitMotion x => cases h; exact nothingUndone_emitMotion x s
  case initCommand =>
    replace h := toOutcome_eq_next.mp h
    split at h <;> cases h
    exact .refl s
  case sWake | sNcsPulse | sResetPulse | sSettle | sVerify | sRepair | sClose | sDiag | sMvalid =>
    exact nothingUndone_ownStep (fun here => by simp only [seqAdvance, here]) (toOutcome_eq_next.mp h)
  case replay sc => exact nothingUndone_execReplay h
  case fatalBringupFault =>
    replace h := toOutcome_eq_next.mp h
    split at h <;> cases h
    exact nothingUndone_fatalFault.mpr (.refl s)
  case captureBurst => exact nothingUndone_execCaptureBurst h
  case mainEdge b => cases h; exact nothingUndone_mainEdge b s
  case latchPoll b => cases h; exact nothingUndone_latchPoll b s
  case auxEdge a => cases h; exact nothingUndone_auxEdge a s
  case auxConfirm a => cases h; exact nothingUndone_auxConfirm a s
  case auxPoll a => cases h; exact nothingUndone_auxPoll a s
  case scrollPoll => cases h; exact nothingUndone_scrollPoll s
  case shutdown l => cases h; exact nothingUndone_sleepBoundary l s
  case pin p l => cases h; exact nothingUndone_drivePin p l s
  case reserved => cases h
  case endProgram | tick | scrollEdgeA | scrollEdgeB | speedAdjust | buttonMask | handlerReturn | raise | emit =>
    cases h; exact .refl s

/-- Going on to the next item undoes nothing. -/
theorem nothingUndone_finishOutcome {o : Host.Outcome State Fault Refusal} {s t : State}
    (ho : ∀ u, o = .next u → NothingUndone s u) (h : finishOutcome o = .next t) : NothingUndone s t := by
  cases o with
  | next u => cases h; exact nothingUndone_finishItem.mpr (ho u rfl)
  | fault f => cases h
  | refused r => cases h

theorem nothingUndone_step {s t : State} (h : step s = .next t) : NothingUndone s t := by
  simp only [step] at h
  split at h
  · cases h
  · split at h
    · cases h
    · split at h
      · cases h
      · exact nothingUndone_finishOutcome (fun _ => nothingUndone_exec) h
  · exact nothingUndone_finishOutcome (fun _ k => nothingUndone_boardCommand (toOutcome_eq_next.mp k)) h
  · exact nothingUndone_finishOutcome (fun _ k => nothingUndone_sensorTask (toOutcome_eq_next.mp k)) h
  · exact nothingUndone_finishOutcome (fun _ k => nothingUndone_sensorStep (toOutcome_eq_next.mp k)) h
  · rename_i a _
    cases h; exact nothingUndone_finishItem.mpr (nothingUndone_actStep .environment a s)

/-- Settles O18: every step is an instruction, a board command or a step of an agent, and none of them undoes anything. -/
theorem nothingIsUndone : Obligations.NothingIsUndone := fun _ _ => nothingUndone_step

end Sys2Proof.Machine
end

section
/-! PROOFS. The buttons and the scroll decoder stay legal (`UnitsOk`) under every handler and every operation of the button
and scroll tasks, whatever the schedule (44_eager_debounce.md R600, R605; 45_scroll_decoder.md R650 to R660). -/

namespace Sys2Proof.Machine

open Sys2Proof.Safety

/-! ### What `UnitsOk` speaks of -/

/-- The fields that `UnitsOk` speaks of. -/
def unitFields (s : State) :=
  (s.params, s.axState, s.axConfirm, s.scDir, s.scSpeed, s.scStopped, s.scEvent, s.scrollK)

/-- A state that agrees with a legal one in these fields is legal. -/
theorem unitsOk_congr {s t : State} (h : UnitsOk s) (same : unitFields t = unitFields s) : UnitsOk t := by
  simp only [unitFields, Prod.mk.injEq] at same
  obtain ⟨params, axState, axConfirm, scDir, scSpeed, scStopped, scEvent, scrollK⟩ := same
  constructor
  case params => rw [params]; exact h.params
  case aux => intro a; rw [AuxOk, axConfirm, axState]; exact h.aux a
  case speedLow => rw [scSpeed]; exact h.speedLow
  case speedHigh => rw [scSpeed, params]; exact h.speedHigh
  case stopped => rw [scStopped, params]; exact h.stopped
  case direction => rw [scEvent, scDir]; exact h.direction
  case scrollSteps => rw [scrollK]; exact h.scrollSteps

variable {s : State} (h : UnitsOk s)
include h

/-- One auxiliary button rewritten legally, the others as they were. -/
theorem unitsOk_setAux (a : AuxButton) (c : Contact) (n : Nat) (limit : n ≤ Config.auxConfirm)
    (owed : 0 < n → c = .down) :
    UnitsOk { s with axState := perAuxSet s.axState a c, axConfirm := perAuxSet s.axConfirm a n } where
  params := h.params
  aux b := by
    by_cases hb : b = a
    · subst hb
      simpa only [AuxOk, perAuxGet_set_same] using ⟨limit, owed⟩
    · simpa only [AuxOk, perAuxGet_set_other _ _ hb] using h.aux b
  speedLow := h.speedLow
  speedHigh := h.speedHigh
  stopped := h.stopped
  direction := h.direction
  scrollSteps := h.scrollSteps

/-- Only the counter of one auxiliary button rewritten. -/
theorem unitsOk_setConfirm (a : AuxButton) (n : Nat) (limit : n ≤ Config.auxConfirm)
    (owed : 0 < n → perAuxGet s.axState a = .down) : UnitsOk { s with axConfirm := perAuxSet s.axConfirm a n } := by
  have set := unitsOk_setAux h a (perAuxGet s.axState a) n limit owed
  rwa [perAuxSet_get] at set

/-! ### Pins and handlers -/

theorem unitsOk_drivePin (p : Pin) (l : Level) : UnitsOk (drivePin p l s) := by
  simp only [drivePin]
  split <;> exact unitsOk_congr h rfl

theorem unitsOk_mainEdge (b : MainButton) : UnitsOk (mainEdge b s) := by
  simp only [mainEdge]
  split
  · exact unitsOk_congr h rfl
  · split
    · exact unitsOk_congr h rfl
    · exact h

/-- A press makes the button DOWN; an edge of a DOWN button opens a release of ten samples (R600). -/
theorem unitsOk_auxEdge (a : AuxButton) : UnitsOk (auxEdge a s) := by
  obtain ⟨limit, _⟩ := h.aux a
  simp only [auxEdge]
  split
  · have pressed := unitsOk_setAux h a .down (perAuxGet s.axConfirm a) limit fun _ => rfl
    rw [perAuxSet_get] at pressed
    exact unitsOk_congr pressed rfl
  · rename_i notUp
    have down : perAuxGet s.axState a = .down := by
      cases c : perAuxGet s.axState a with
      | up => exact absurd c notUp
      | down => rfl
    split
    · exact unitsOk_setConfirm h a _ (Nat.le_refl _) fun _ => down
    · exact h

/-- A scroll handler leaves an event with the direction it inferred (R650, R651). -/
theorem unitsOk_scrollEdge (d : ScrollDir) (hd : d ≠ .none) : UnitsOk (scrollEdge d s) where
  params := h.params
  aux := h.aux
  speedLow := h.speedLow
  speedHigh := h.speedHigh
  stopped := h.stopped
  direction _ := hd
  scrollSteps := h.scrollSteps

theorem unitsOk_scrollEdgeA : UnitsOk (scrollEdgeA s) :=
  unitsOk_scrollEdge h _ (by cases pinLevel s .scrB <;> decide)

theorem unitsOk_scrollEdgeB : UnitsOk (scrollEdgeB s) :=
  unitsOk_scrollEdge h _ (by cases pinLevel s .scrA <;> decide)

theorem unitsOk_handlerEntry (p : Pin) : UnitsOk (handlerEntry p s) := by
  have cleared : UnitsOk (setPending p false s) := unitsOk_congr h rfl
  cases p with
  | lNo | lNc | rNo | rNc => exact unitsOk_mainEdge cleared _
  | m | s4 | s5 => exact unitsOk_auxEdge cleared _
  | scrA => exact unitsOk_scrollEdgeA cleared
  | scrB => exact unitsOk_scrollEdgeB cleared

/-! ### The rule steps of the button and scroll tasks -/

/-- A sample that shows the contact pressed cancels the release; any other counts it down, and the last one accepts it
(R605). -/
theorem unitsOk_auxConfirm (a : AuxButton) : UnitsOk (auxConfirm a s) := by
  obtain ⟨limit, down⟩ := h.aux a
  simp only [auxConfirm]
  split
  · exact h
  · split
    · exact unitsOk_congr (unitsOk_setConfirm h a 0 (Nat.zero_le _) nofun) rfl
    · rename_i owes _
      split
      · rename_i last
        exact unitsOk_congr (unitsOk_setAux h a .up _ (by omega) fun owed => absurd last (by omega)) rfl
      · exact unitsOk_setConfirm h a _ (by omega) fun _ => down (by omega)

theorem unitsOk_latchTake (b : MainButton) : UnitsOk (latchTake b s).2 := by
  simp only [latchTake]
  split
  · exact unitsOk_congr h rfl
  · exact h

theorem unitsOk_latchRelease (b : MainButton) : UnitsOk (latchRelease b s) := by
  simp only [latchRelease]
  split
  · exact unitsOk_congr h rfl
  · exact h

theorem unitsOk_reportButtons : UnitsOk (reportButtons s) := unitsOk_congr h rfl

theorem unitsOk_auxTake (a : AuxButton) : UnitsOk (auxTake a s).2 := unitsOk_congr h rfl

theorem unitsOk_reportWheel (d : ScrollDir) : UnitsOk (reportWheel d s) :=
  unitsOk_congr h rfl

theorem unitsOk_buttonAtom (st : ButtonStep) : UnitsOk (buttonAtom st s).1 := by
  cases st with
  | confirm a => exact unitsOk_auxConfirm h a
  | latchTake b => exact unitsOk_latchTake h b
  | latchReport _ | auxReport _ => exact unitsOk_reportButtons h
  | latchRelease b => exact unitsOk_latchRelease h b
  | auxTake a => exact unitsOk_auxTake h a

omit h in
/-- The speed rises to `SPEED_MAX` at most and falls to `SPEED_MIN` at most; the idle counter falls back at `PAUSE` (R655). -/
theorem adjustedSpeed_inRange {speedMax pause speed stopped : Nat} (ev : Bool) (low : Config.speedMin ≤ speed)
    (high : speed ≤ speedMax) (idle : stopped ≤ pause) :
    Config.speedMin ≤ (adjustedSpeed speedMax pause ev speed stopped).1 ∧
      (adjustedSpeed speedMax pause ev speed stopped).1 ≤ speedMax ∧
      (adjustedSpeed speedMax pause ev speed stopped).2 ≤ pause := by
  cases ev with
  | true => simp only [adjustedSpeed, if_true]; omega
  | false =>
    simp only [adjustedSpeed, Bool.false_eq_true, if_false]
    by_cases falls : speed > Config.speedMin
    · by_cases idled : stopped + 1 > pause
      · rw [if_pos falls, if_pos idled]; dsimp only; omega
      · rw [if_pos falls, if_neg idled]; dsimp only; omega
    · rw [if_neg falls]; exact ⟨low, high, idle⟩

theorem unitsOk_speedAdjust (ev : Bool) : UnitsOk (speedAdjust ev s) := by
  obtain ⟨low, high, idle⟩ := adjustedSpeed_inRange ev h.speedLow h.speedHigh h.stopped
  exact ⟨h.params, h.aux, low, high, idle, h.direction, h.scrollSteps⟩

/-- The event is taken: none is left without a direction (R660). -/
theorem unitsOk_scrollTake : UnitsOk (scrollTake s).2.2 :=
  ⟨h.params, h.aux, h.speedLow, h.speedHigh, h.stopped, nofun, h.scrollSteps⟩

theorem unitsOk_scrollAtom (st : ScrollStep) : UnitsOk (scrollAtom st s).1 := by
  cases st with
  | take => exact unitsOk_scrollTake h
  | adjust ev d => exact unitsOk_speedAdjust h ev
  | report d => exact unitsOk_reportWheel h d

/-- The steps a rule step leaves to do carry the direction of the event they were taken with (R660). -/
theorem scrollAtom_leaves_ok (st : ScrollStep) (hst : ScrollStepOk st) :
    ∀ next ∈ (scrollAtom st s).2, ScrollStepOk next := by
  cases st with
  | take =>
    intro next hnext
    rw [List.mem_singleton.mp hnext]
    exact h.direction
  | adjust ev d =>
    cases ev with
    | false => exact nofun
    | true =>
      intro next hnext
      rw [List.mem_singleton.mp hnext]
      exact hst rfl
  | report d => exact nofun

/-- The scroll task's remaining steps are replaced by legal ones. -/
theorem unitsOk_setScrollK (k : List ScrollStep) (sleep : Option Time) (hk : ∀ st ∈ k, ScrollStepOk st) :
    UnitsOk { s with scrollK := k, scrollSleep := sleep } :=
  ⟨h.params, h.aux, h.speedLow, h.speedHigh, h.stopped, h.direction, hk⟩

theorem unitsOk_scrollIdle : UnitsOk (scrollIdle s) := unitsOk_setScrollK h [] none nofun

/-! ### The tasks' own steps, and step boundaries -/

theorem unitsOk_buttonStep : UnitsOk (buttonStep s) := by
  simp only [buttonStep]
  split
  · split
    · exact unitsOk_congr (unitsOk_buttonAtom h _) rfl
    · split
      · exact unitsOk_congr h rfl
      · split
        · exact h
        · split <;> exact unitsOk_congr h rfl
  · exact h

theorem unitsOk_scrollStep : UnitsOk (scrollStep s) := by
  have takeOk : ∀ st ∈ [ScrollStep.take], ScrollStepOk st := by
    intro st hst
    rw [List.mem_singleton.mp hst]
    trivial
  simp only [scrollStep]
  split
  · split
    · rename_i st rest todo
      have steps : ∀ st' ∈ st :: rest, ScrollStepOk st' := todo ▸ h.scrollSteps
      refine unitsOk_setScrollK (unitsOk_scrollAtom h st) _ _ fun next hnext => ?_
      rcases List.mem_append.mp hnext with left | later
      · exact scrollAtom_leaves_ok h st (steps st (List.mem_cons_self ..)) next left
      · exact steps next (List.mem_cons_of_mem _ later)
    · split
      · exact unitsOk_setScrollK h _ s.scrollSleep takeOk
      · split
        · exact h
        · split
          · exact unitsOk_congr h rfl
          · exact unitsOk_setScrollK h _ _ takeOk
  · exact h

omit h in
theorem unitsOk_actStep (who : Agent) (a : Act) (s : State) (h : UnitsOk s) : UnitsOk (actStep who a s) := by
  cases a with
  | pin p l => exact unitsOk_drivePin h p l
  | isr p =>
    simp only [actStep]
    split
    · exact unitsOk_handlerEntry h p
    · exact h
  | tick n _ | shutdownReq => exact unitsOk_congr h rfl
  | button =>
    simp only [actStep]
    split
    · exact h
    · exact unitsOk_buttonStep h
  | scroll =>
    simp only [actStep]
    split
    · exact h
    · exact unitsOk_scrollStep h

theorem unitsOk_yield (who : Agent) : UnitsOk (yield who s) :=
  yield_induction who (fun _ _ k => unitsOk_congr k rfl) (unitsOk_actStep who) h

/-! ### The calls of the two tasks, run to their ends -/

theorem unitsOk_latchPoll (b : MainButton) : UnitsOk (latchPoll b s) := by
  have taken := unitsOk_latchTake h b
  simp only [latchPoll]
  split
  · exact unitsOk_latchRelease (unitsOk_yield (unitsOk_reportButtons (unitsOk_yield taken _)) _) b
  · exact taken

theorem unitsOk_auxPoll (a : AuxButton) : UnitsOk (auxPoll a s) := by
  have taken := unitsOk_auxTake h a
  simp only [auxPoll]
  split
  · exact unitsOk_reportButtons (unitsOk_yield taken _)
  · exact taken

theorem unitsOk_buttonCall (st : ButtonStep) : UnitsOk (buttonCall st s) := by
  cases st with
  | confirm a => exact unitsOk_auxConfirm h a
  | latchTake b => exact unitsOk_latchPoll h b
  | latchReport _ | auxReport _ => exact unitsOk_reportButtons h
  | latchRelease b => exact unitsOk_latchRelease h b
  | auxTake a => exact unitsOk_auxPoll h a

omit h in
theorem unitsOk_buttonCalls (sts : List ButtonStep) {s : State} (h : UnitsOk s) : UnitsOk (buttonCalls sts s) := by
  induction sts generalizing s with
  | nil => exact h
  | cons st sts ih => exact ih (unitsOk_yield (unitsOk_buttonCall h st) .button)

theorem unitsOk_scrollFinish (ev : Bool) (d : ScrollDir) : UnitsOk (scrollFinish ev d s) := by
  have adjusted := unitsOk_speedAdjust (unitsOk_yield h .scroll) ev
  simp only [scrollFinish]
  split
  · exact unitsOk_reportWheel (unitsOk_yield adjusted .scroll) d
  · exact adjusted

theorem unitsOk_scrollPoll : UnitsOk (scrollPoll s) := unitsOk_scrollFinish (unitsOk_scrollTake h) _ _

theorem unitsOk_scrollCall (st : ScrollStep) : UnitsOk (scrollCall st s) := by
  cases st with
  | take => exact unitsOk_scrollPoll h
  | adjust ev d => exact unitsOk_scrollFinish h ev d
  | report d => exact unitsOk_reportWheel h d

omit h in
theorem unitsOk_scrollCalls (sts : List ScrollStep) {s : State} (h : UnitsOk s) : UnitsOk (scrollCalls sts s) := by
  induction sts generalizing s with
  | nil => exact h
  | cons st sts ih => exact ih (unitsOk_scrollCall h st)

end Sys2Proof.Machine
end

section
/-! PROOFS. What an operation of the machine can do, said once: `Change` lists the elementary changes of the state, an
operation run to its end is some of them one after the other (`changes_exec`), and so is a step of the machine but for the
sensor task's position and the program (`step_changes`). The invariants of every step follow from the elementary changes
alone. -/

namespace Sys2Proof.Machine

open Sys2Proof.Safety

/-! ### The elementary changes -/

/-- One elementary change of the state. -/
inductive Change (s : State) : State → Prop where
  /-- The other agents act, or one of their operations is run: the sensor task's fields stay (10_state.md R171, R172), and
  the buttons and the scroll decoder stay legal. -/
  | others {t : State} (frame : OthersActed s t) (units : UnitsOk s → UnitsOk t) : Change s t
  /-- The driver, its lines and inputs, or the time move on; the observations only grow. -/
  | driver {t : State}
      (frame : t = { s with
        now := t.now, power := t.power, ncs := t.ncs, nreset := t.nreset, busLast := t.busLast
        busLastEnd := t.busLastEnd, drvState := t.drvState, degraded := t.degraded, mode := t.mode, diag := t.diag
        seqPc := t.seqPc, loopStart := t.loopStart, runSensor := t.runSensor, oracle := t.oracle
        writeOracle := t.writeOracle, ret := t.ret, reports := t.reports, events := t.events, wire := t.wire })
      (reports : ∃ l, t.reports = s.reports ++ l) (events : ∃ l, t.events = s.events ++ l)
      (wire : ∃ l, t.wire = s.wire ++ l) : Change s t
  /-- A wait uses up its slack, and corrupts the bus only if that was negative (40_register_bus.md R428). -/
  | drawn (short : Bool) (negative : short = true → nextSlack s < 0) : Change s (corruptIf short (dropSlack s))
  /-- A sample is pushed (42_ring_buffer.md R500). -/
  | pushed {t : State} (x : Sample) (h : pushSample x s = .ok t) : Change s t
  /-- The oldest sample is merged (R501). -/
  | merged {t : State} (h : mergeOldest s = .ok t) : Change s t
  /-- The read index moves on (R505). -/
  | advancedRead : Change s (advanceRead s)

/-- Elementary changes, one after the other. -/
inductive Changes (s : State) : State → Prop where
  | none : Changes s s
  | more {t u : State} (before : Changes s t) (last : Change t u) : Changes s u

theorem Changes.refl (s : State) : Changes s s := .none

theorem changes_of {s t : State} (h : Change s t) : Changes s t := .more .none h

theorem Changes.trans {s t u : State} (h : Changes s t) (k : Changes t u) : Changes s u := by
  induction k with
  | none => exact h
  | more _ last ih => exact .more ih last

/-- A property that every elementary change keeps is kept by any number of them. -/
theorem changes_induction {P : State → Prop} (keeps : ∀ s t, Change s t → P s → P t) {s t : State} (h : Changes s t)
    (hs : P s) : P t := by
  induction h with
  | none => exact hs
  | more _ last ih => exact keeps _ _ last ih

theorem changes_others {s t : State} (frame : OthersActed s t) (units : UnitsOk s → UnitsOk t) : Changes s t :=
  changes_of (.others frame units)

/-- A change of the driver that nobody observes. -/
theorem changes_quiet {s t : State}
    (frame : t = { s with
      now := t.now, power := t.power, ncs := t.ncs, nreset := t.nreset, busLast := t.busLast
      busLastEnd := t.busLastEnd, drvState := t.drvState, degraded := t.degraded, mode := t.mode, diag := t.diag
      seqPc := t.seqPc, loopStart := t.loopStart, runSensor := t.runSensor, oracle := t.oracle
      writeOracle := t.writeOracle, ret := t.ret }) : Changes s t := by
  rw [frame]
  exact changes_of <|
    .driver rfl ⟨[], (List.append_nil _).symm⟩ ⟨[], (List.append_nil _).symm⟩ ⟨[], (List.append_nil _).symm⟩

/-- A change of the driver that an event tells of. -/
theorem changes_event {s t : State} (e : Event)
    (frame : t = { s with
      drvState := t.drvState, degraded := t.degraded, seqPc := t.seqPc, events := s.events ++ [e] }) : Changes s t := by
  rw [frame]
  exact changes_of (.driver rfl ⟨[], (List.append_nil _).symm⟩ ⟨[e], rfl⟩ ⟨[], (List.append_nil _).symm⟩)

/-- A change of the driver that is seen on the bus. -/
theorem changes_seen {s t : State} (w : List WireEvent)
    (frame : t = { s with
      ncs := t.ncs, busLast := t.busLast, busLastEnd := t.busLastEnd, oracle := t.oracle
      wire := s.wire ++ w }) : Changes s t := by
  rw [frame]
  exact changes_of (.driver rfl ⟨[], (List.append_nil _).symm⟩ ⟨[], (List.append_nil _).symm⟩ ⟨w, rfl⟩)

theorem changes_emitReport (r : Report) (s : State) : Changes s (emitReport r s) :=
  changes_of (.driver rfl ⟨[r], rfl⟩ ⟨[], (List.append_nil _).symm⟩ ⟨[], (List.append_nil _).symm⟩)

theorem changes_fatalFault (s : State) : Changes s (fatalFault s) := changes_event _ rfl

theorem changes_advance (n : Nat) (s : State) : Changes s (advance n s) := changes_quiet rfl

theorem changes_setNcs (l : Level) (s : State) : Changes s (setNcs l s) := changes_seen _ rfl

/-! ### Step boundaries and waits -/

theorem changes_yield (who : Agent) (s : State) : Changes s (yield who s) :=
  changes_others (othersActed_yield who s) fun h => unitsOk_yield h who

theorem corruptIf_false (s : State) : corruptIf false s = s := by
  simp only [corruptIf, Bool.or_false]

theorem corruptIf_true (s : State) : corruptIf true s = { s with busCorrupt := true } := by
  simp only [corruptIf, Bool.or_true]

theorem changes_dropSlack (s : State) : Changes s (dropSlack s) := by
  have drawn := Change.drawn (s := s) false nofun
  rw [corruptIf_false] at drawn
  exact changes_of drawn

theorem changes_waitFrom (who : Agent) (t0 : Time) (T : Nat) (s : State) : Changes s (waitFrom who t0 T s) :=
  (changes_yield who s).trans <| (changes_dropSlack _).trans (changes_advance _ _)

theorem changes_wait (who : Agent) (T : Nat) (s : State) : Changes s (wait who T s) := changes_waitFrom who s.now T s

/-- A bus wait ends below its minimum only on a negative slack (R428). -/
theorem changes_busWaitFrom (t0 : Time) (T : Nat) (s : State) : Changes s (busWaitFrom t0 T s) := by
  have boundary := changes_yield .sensor s
  simp only [busWaitFrom]
  split
  · have drawn := Change.drawn (s := yield .sensor s) true fun _ => by omega
    rw [corruptIf_true] at drawn
    exact boundary.trans <| (changes_of drawn).trans (changes_quiet rfl)
  · exact boundary.trans <| (changes_dropSlack _).trans (changes_advance _ _)

/-! ### Transactions -/

theorem changes_busAssert (s : State) : Changes s (busAssert s) :=
  (changes_busWaitFrom (lastEnd s) _ s).trans (changes_setNcs false _)

theorem changes_busSend (bytes : List Byte) (s : State) : Changes s (busSend bytes s) :=
  (changes_busWaitFrom s.now _ s).trans (changes_seen (bytes.map .sent) rfl)

theorem changes_endTransaction (kind : BusKind) (s : State) : Changes s (endTransaction kind s) :=
  changes_seen [.ncs true s.now] rfl

theorem changes_busRelease (kind : BusKind) (s : State) : Changes s (busRelease kind s) :=
  (changes_yield .sensor s).trans <| (changes_endTransaction kind _).trans (changes_yield .sensor _)

theorem changes_askByte {s t : State} {r : Answer Byte} (h : askByte s = .ok (r, t)) : Changes s t := by
  simp only [askByte] at h
  split at h <;> cases h
  · exact changes_seen [.received [_]] rfl
  · exact changes_quiet rfl

theorem changes_askBurst {s t : State} {r : Answer (List Byte)} (h : askBurst s = .ok (r, t)) : Changes s t := by
  simp only [askBurst] at h
  split at h
  · cases h
  · split at h <;> cases h
    exact changes_seen [.received _] rfl
  · cases h; exact changes_quiet rfl
  · cases h

/-- A transaction up to the bytes it sends. -/
theorem changes_opened (bytes : List Byte) (s : State) : Changes s (busSend bytes (busAssert s)) :=
  (changes_busAssert s).trans (changes_busSend bytes _)

theorem changes_busWrite (a : Addr) (v : Byte) (s : State) : Changes s (busWrite a v s).2 :=
  (changes_opened _ s).trans <| (changes_quiet (t := (askWrite _).2) rfl).trans (changes_busRelease .write _)

theorem changes_busRead {a : Addr} {s t : State} {r : Answer Byte} (h : busRead a s = .ok (r, t)) : Changes s t := by
  simp only [busRead] at h
  split at h
  · cases h
  · split at h
    · cases h
    · rename_i asked
      cases h
      exact (changes_opened _ s).trans <| (changes_busWaitFrom _ _ _).trans <|
        (changes_askByte asked).trans (changes_busRelease .read _)

theorem changes_busBurst {s t : State} {r : Answer (List Byte)} {ts : Time} (h : busBurst s = .ok (r, ts, t)) :
    Changes s t := by
  simp only [busBurst] at h
  split at h
  · cases h
  · rename_i asked
    cases h
    exact (changes_opened _ s).trans <| (changes_busWaitFrom _ _ _).trans <|
      (changes_askBurst asked).trans (changes_busRelease .burst _)

theorem changes_setRet (r : Ret) (s : State) : Changes s (setRet r s) := changes_quiet rfl

theorem changes_issueWrite {a : Addr} {v : Byte} {s t : State} (h : issueWrite a v s = .ok t) : Changes s t := by
  simp only [issueWrite] at h
  split at h <;> cases h
  exact (changes_busWrite a v s).trans (changes_setRet _ _)

theorem changes_issueRead {a : Addr} {s t : State} (h : issueRead a s = .ok t) : Changes s t := by
  simp only [issueRead] at h
  split at h
  · split at h
    · cases h
    · rename_i read
      cases h; exact (changes_busRead read).trans (changes_setRet _ _)
  · cases h

theorem changes_issueBurst {a : Addr} {n : Nat} {s t : State} (h : issueBurst a n s = .ok t) : Changes s t := by
  simp only [issueBurst] at h
  split at h
  · cases h
  · split at h
    · split at h
      · cases h
      · rename_i burst
        cases h; exact (changes_busBurst burst).trans (changes_setRet _ _)
    · cases h

/-! ### The motion ring -/

theorem changes_emitMotion (x : Sample) (s : State) : Changes s (emitMotion x s) := by
  have all : ∀ (rs : List Report) (s : State), Changes s (emitAll rs s) := by
    intro rs
    induction rs with
    | nil => exact .refl
    | cons r rs ih => exact fun s => (changes_emitReport r s).trans <| (changes_yield .sensor _).trans (ih _)
  exact all (sampleReports x) s

theorem changes_drainLoop (n : Nat) {s t : State} (h : drainLoop n s = .ok t) : Changes s t := by
  induction n generalizing s with
  | zero => cases h; exact .refl _
  | succ n ih =>
    simp only [drainLoop] at h
    split at h
    · cases h; exact .refl _
    · split at h
      · cases h
      · exact (changes_emitMotion _ s).trans <| (changes_of .advancedRead).trans <|
          (changes_yield .sensor _).trans (ih h)

/-! ### The bring-up -/

theorem changes_replayEntry (a : Addr) (v : Byte) (s : State) : Changes s (replayEntry a v s).2 := by
  have wrote := changes_busWrite a v s
  simp only [replayEntry]
  split
  · exact wrote.trans (changes_quiet rfl)
  · exact wrote.trans (changes_fatalFault _)

theorem changes_replayWords (ws : List (BitVec 16)) {s t : State} {b : Bool} (h : replayWords ws s = .ok (b, t)) :
    Changes s t := by
  induction ws generalizing s with
  | nil => cases h; exact .refl _
  | cons w ws ih =>
    simp only [replayWords] at h
    split at h
    · rename_i a v _
      have sent := changes_replayEntry a v s
      split at h
      · exact sent.trans (ih h)
      · cases h; exact sent
    · cases h
    · cases h

theorem changes_replayThen {script : List (BitVec 16)} {after : State → State} (hafter : ∀ s, Changes s (after s))
    {s t : State} (h : replayThen script after s = .ok t) : Changes s t := by
  simp only [replayThen, replayScript] at h
  split at h
  · cases h
  · rename_i replayed
    cases h; exact (changes_replayWords _ replayed).trans (hafter _)
  · rename_i replayed
    cases h; exact changes_replayWords _ replayed

theorem changes_verifyPoll (n : Nat) {s t : State} (h : verifyPoll n s = .ok t) : Changes s t := by
  induction n generalizing s with
  | zero => cases h; exact changes_event _ rfl
  | succ n ih =>
    have waited := changes_waitFrom .sensor (lastEnd s) Config.tVerify s
    simp only [verifyPoll] at h
    split at h
    · cases h
    · rename_i u read
      cases h
      exact waited.trans <| (changes_busRead read).trans <|
        (changes_quiet (t := nextAttempt u) rfl).trans (changes_fatalFault _)
    · rename_i u read
      have answered : Changes s (nextAttempt u) := waited.trans <| (changes_busRead read).trans (changes_quiet rfl)
      split at h
      · cases h; exact answered.trans (changes_quiet rfl)
      · exact answered.trans (ih h)

theorem changes_diagReads (addrs : List Addr) {s t : State} (h : diagReads addrs s = .ok t) : Changes s t := by
  induction addrs generalizing s with
  | nil => cases h; exact changes_quiet rfl
  | cons a addrs ih =>
    simp only [diagReads] at h
    split at h
    · cases h
    · rename_i read
      cases h; exact (changes_busRead read).trans (changes_fatalFault _)
    · rename_i b u read
      have stored : Changes u (nextEntry (storeDiag b u)) := changes_quiet rfl
      exact (changes_busRead read).trans <| stored.trans (ih h)

theorem changes_seqNcsPulse (s : State) : Changes s (seqNcsPulse s) :=
  (changes_setNcs false s).trans <| (changes_wait .sensor s.params.tNcsPulse _).trans <|
    (changes_setNcs true _).trans (changes_quiet rfl)

/-- A timed step: its line or its power set, its wait, its last assignments (41_sensor_driver.md R452 to R455). -/
theorem changes_timed {s u : State} {t0 : Time} {T : Nat} {after : State → State} (before : Changes s u)
    (hafter : ∀ s, Changes s (after s)) : Changes s (after (waitFrom .sensor t0 T u)) :=
  before.trans <| (changes_waitFrom .sensor t0 T u).trans (hafter _)

theorem changes_seqAdvance {s t : State} (h : seqAdvance s = .ok t) : Changes s t := by
  cases step : s.seqPc.step <;> simp only [seqAdvance, step] at h
  case wake => cases h; exact changes_timed (changes_quiet rfl) fun _ => changes_quiet rfl
  case ncsPulse => cases h; exact changes_seqNcsPulse s
  case resetPulse =>
    cases h
    exact changes_timed (after := fun u => gotoFresh .settle (setNreset true u)) (changes_quiet rfl)
      fun _ => changes_quiet rfl
  case settle => cases h; exact changes_timed (.refl s) fun _ => changes_quiet rfl
  case first | repair | close => exact changes_replayThen (fun _ => changes_quiet rfl) h
  case verify => exact changes_verifyPoll _ h
  case diag => exact changes_diagReads _ h
  case mvalid => cases h; exact changes_timed (.refl s) fun _ => changes_quiet rfl
  case idle | stream | mode | fail => cases h; exact .refl s

theorem changes_seqRun (n : Nat) {s t : State} (h : seqRun n s = .ok t) : Changes s t := by
  induction n generalizing s with
  | zero => cases h; exact .refl _
  | succ n ih =>
    simp only [seqRun] at h
    split at h
    · cases h
    · rename_i advanced
      exact (changes_seqAdvance advanced).trans (ih h)

theorem changes_atStep {st : SeqStep} {run : State → Except Stop State} {s t : State}
    (hrun : s.seqPc.step = st → run s = .ok t → Changes s t) (h : atStep st run s = .ok t) : Changes s t := by
  simp only [atStep] at h
  split at h
  · rename_i here
    exact hrun here h
  · cases h

/-- Each step of the bring-up issued on its own is the sequencer's step at that place (41_sensor_driver.md R450). -/
theorem changes_ownStep {st : SeqStep} {run : State → Except Stop State} {s t : State}
    (hrun : s.seqPc.step = st → run s = seqAdvance s) (h : atStep st run s = .ok t) : Changes s t :=
  changes_atStep (fun here k => changes_seqAdvance (hrun here ▸ k)) h

theorem changes_execReplay {sc : ScriptId} {s t : State} (h : execReplay sc s = .next t) : Changes s t := by
  replace h := toOutcome_eq_next.mp h
  cases sc with
  | first => exact changes_ownStep (fun here => by simp only [seqAdvance, here]) h
  | repair | close | mode => exact changes_atStep (fun _ => changes_replayThen (after := id) .refl) h

/-! ### Captures and mode switches -/

theorem changes_captureBurst {s t : State} {r : Option Sample} (h : captureBurst s = .ok (r, t)) : Changes s t := by
  simp only [captureBurst] at h
  split at h
  · cases h
  · rename_i burst
    cases h; exact (changes_busBurst burst).trans (changes_event _ rfl)
  · rename_i burst
    cases h; exact changes_busBurst burst

theorem changes_execCaptureBurst {s t : State} (h : execCaptureBurst s = .next t) : Changes s t := by
  replace h := toOutcome_eq_next.mp h
  split at h
  · split at h
    · cases h
    · rename_i captured
      cases h; exact (changes_captureBurst captured).trans (changes_setRet _ _)
  · cases h

theorem changes_modeCommand {m : OpMode} {s t : State} (h : modeCommand m s = .ok t) : Changes s t := by
  simp only [modeCommand] at h
  split at h
  · cases h
  · split at h
    · exact (changes_quiet (t := gotoStep .mode s) rfl).trans <|
        changes_replayThen (after := setMode m) (fun _ => changes_quiet rfl) h
    · cases h

/-! ### The loops -/

theorem changes_stopLoop (l : Loop) (s : State) : Changes s (stopLoop l s) := by
  cases l with
  | sensor => exact changes_quiet rfl
  | button | scroll => exact changes_others (othersActed_quiet rfl) fun h => unitsOk_congr h rfl

theorem changes_sleepBoundary (l : Loop) (s : State) : Changes s (sleepBoundary l s) := by
  simp only [sleepBoundary]
  split
  · exact changes_stopLoop l s
  · exact .refl s

theorem changes_buttonCycleWith {sleep : State → State} (hsleep : ∀ s, Changes s (sleep s)) {s t : State}
    (h : buttonCycleWith sleep s = .ok t) : Changes s t := by
  simp only [buttonCycleWith] at h
  split at h <;> cases h
  have idle : Changes s (buttonIdle s) := changes_others (othersActed_quiet rfl) fun h => unitsOk_congr h rfl
  have calls := changes_others (othersActed_buttonCalls (buttonToDo s) (buttonIdle s)) (unitsOk_buttonCalls _)
  exact idle.trans <| calls.trans <| (hsleep _).trans (changes_sleepBoundary .button _)

theorem changes_scrollCycleWith {sleep : State → State} (hsleep : ∀ s, Changes s (sleep s)) {s t : State}
    (h : scrollCycleWith sleep s = .ok t) : Changes s t := by
  simp only [scrollCycleWith] at h
  split at h <;> cases h
  have idle : Changes s (scrollIdle s) := changes_others (othersActed_quiet rfl) unitsOk_scrollIdle
  have calls := changes_others (othersActed_scrollCalls (scrollToDo s) (scrollIdle s)) (unitsOk_scrollCalls _)
  exact idle.trans <| calls.trans <| (hsleep _).trans (changes_sleepBoundary .scroll _)

theorem changes_capturePhase {s t : State} (h : capturePhase s = .ok t) : Changes s t := by
  simp only [capturePhase] at h
  split at h
  · split at h
    · cases h
    · rename_i captured
      cases h; exact changes_captureBurst captured
    · rename_i captured
      exact (changes_captureBurst captured).trans (changes_of (.pushed _ h))
  · cases h; exact .refl s

theorem changes_sensorWork {s t : State} (h : sensorWork s = .ok t) : Changes s t := by
  simp only [sensorWork] at h
  split at h
  · cases h
  · rename_i drained
    exact (changes_quiet (t := startCycle s) rfl).trans <| (changes_yield .sensor _).trans <|
      (changes_drainLoop _ drained).trans <| (changes_yield .sensor _).trans (changes_capturePhase h)

theorem changes_sensorSleep (s : State) : Changes s (sensorSleep s) := by
  simp only [sensorSleep]
  split
  · exact changes_wait .sensor _ s
  · exact .refl s

theorem changes_sensorCycleWith {sleep : State → State} (hsleep : ∀ s, Changes s (sleep s)) {s t : State}
    (h : sensorCycleWith sleep s = .ok t) : Changes s t := by
  simp only [sensorCycleWith] at h
  split at h
  · cases h
  · split at h
    · split at h
      · cases h
      · rename_i worked
        cases h
        exact (changes_sensorWork worked).trans <| (changes_yield .sensor _).trans <| (hsleep _).trans <|
          (changes_yield .sensor _).trans (changes_sleepBoundary .sensor _)
    · cases h

theorem changes_sensorTask {s t : State} (h : sensorTask s = .ok t) : Changes s t := by
  simp only [sensorTask] at h
  split at h
  · cases h
  · split at h
    · cases h
    · split at h
      · exact changes_sensorCycleWith changes_sensorSleep h
      · split at h
        · cases h
        · rename_i advanced
          have sequencer := changes_seqAdvance advanced
          cases h
          split
          · exact sequencer.trans (changes_sleepBoundary .sensor _)
          · exact sequencer

/-! ### Stimuli and instructions -/

theorem changes_initAll {s t : State} (h : initAll s = .ok t) : Changes s t := by
  simp only [initAll] at h
  split at h
  · cases h
  · split at h
    · split at h
      · cases h
      · rename_i broughtUp
        cases h
        have begun : Changes s (beginBringUp s) := changes_quiet rfl
        exact begun.trans <| (changes_seqRun 10 broughtUp).trans (changes_sleepBoundary .sensor _)
    · cases h

theorem changes_requestShutdown (s : State) : Changes s (requestShutdown s) :=
  changes_others (othersActed_quiet rfl) fun h => unitsOk_congr h rfl

theorem changes_boundaryIf (there : Bool) (l : Loop) (s : State) : Changes s (boundaryIf there l s) := by
  simp only [boundaryIf]
  split
  · exact changes_sleepBoundary l s
  · exact .refl s

theorem changes_execShut {s t : State} (h : execShut s = .next t) : Changes s t := by
  cases h
  exact (changes_requestShutdown s).trans <| (changes_boundaryIf _ .sensor _).trans <|
    (changes_boundaryIf _ .button _).trans (changes_boundaryIf _ .scroll _)

theorem changes_execTickms (k : Nat) {s t : State} (h : execTickms k s = .next t) : Changes s t := by
  induction k generalizing s with
  | zero => cases h; exact .refl _
  | succ k ih =>
    simp only [execTickms] at h
    exact (changes_advance 1000 s).trans (ih h)

theorem changes_dispatch {p : Pin} {s t : State} (h : dispatch p s = .ok t) : Changes s t := by
  simp only [dispatch] at h
  split at h <;> cases h
  exact changes_others (othersActed_handlerEntry p s) fun h => unitsOk_handlerEntry h p

/-- All an instruction can do: elementary changes, one after the other; only `END` ends the program. -/
theorem changes_exec {i : Instr} {s t : State} (notEnd : i ≠ .endProgram) (h : exec i s = .next t) : Changes s t := by
  cases i <;> simp only [exec] at h
  case tWrite | busWrite => exact changes_issueWrite (toOutcome_eq_next.mp h)
  case tRead | busRead => exact changes_issueRead (toOutcome_eq_next.mp h)
  case tBurst | busBurst => exact changes_issueBurst (toOutcome_eq_next.mp h)
  case script =>
    replace h := toOutcome_eq_next.mp h
    split at h <;> cases h
    exact changes_replayEntry _ _ s
  case endProgram => exact absurd rfl notEnd
  case pin p l => cases h; exact changes_others (othersActed_drivePin p l s) fun h => unitsOk_drivePin h p l
  case isr | handlerEntry => exact changes_dispatch (toOutcome_eq_next.mp h)
  case btask => exact changes_buttonCycleWith .refl (toOutcome_eq_next.mp h)
  case stask => exact changes_scrollCycleWith .refl (toOutcome_eq_next.mp h)
  case scycle => exact changes_sensorCycleWith .refl (toOutcome_eq_next.mp h)
  case buttonCycle => exact changes_buttonCycleWith (changes_wait _ _) (toOutcome_eq_next.mp h)
  case scrollCycle => exact changes_scrollCycleWith (changes_wait _ _) (toOutcome_eq_next.mp h)
  case sensorCycle => exact changes_sensorCycleWith changes_sensorSleep (toOutcome_eq_next.mp h)
  case initStim => exact changes_initAll (toOutcome_eq_next.mp h)
  case mode | modeSwitch => exact changes_modeCommand (toOutcome_eq_next.mp h)
  case shut => exact changes_execShut h
  case tickms k => exact changes_execTickms k h
  case pusht | push => exact changes_of (.pushed _ (toOutcome_eq_next.mp h))
  case merge => exact changes_of (.merged (toOutcome_eq_next.mp h))
  case draint | drain => exact changes_drainLoop _ (toOutcome_eq_next.mp h)
  case emitMotion x => cases h; exact changes_emitMotion x s
  case initCommand =>
    replace h := toOutcome_eq_next.mp h
    split at h <;> cases h
    exact changes_quiet rfl
  case sWake | sNcsPulse | sResetPulse | sSettle | sVerify | sRepair | sClose | sDiag | sMvalid =>
    exact changes_ownStep (fun here => by simp only [seqAdvance, here]) (toOutcome_eq_next.mp h)
  case replay sc => exact changes_execReplay h
  case fatalBringupFault =>
    replace h := toOutcome_eq_next.mp h
    split at h <;> cases h
    exact changes_fatalFault s
  case captureBurst => exact changes_execCaptureBurst h
  case mainEdge b => cases h; exact changes_others (othersActed_mainEdge b s) fun h => unitsOk_mainEdge h b
  case latchPoll b => cases h; exact changes_others (othersActed_latchPoll b s) fun h => unitsOk_latchPoll h b
  case auxEdge a => cases h; exact changes_others (othersActed_auxEdge a s) fun h => unitsOk_auxEdge h a
  case auxConfirm a => cases h; exact changes_others (othersActed_auxConfirm a s) fun h => unitsOk_auxConfirm h a
  case auxPoll a => cases h; exact changes_others (othersActed_auxPoll a s) fun h => unitsOk_auxPoll h a
  case scrollEdgeA => cases h; exact changes_others (othersActed_handler .scrA s) unitsOk_scrollEdgeA
  case scrollEdgeB => cases h; exact changes_others (othersActed_handler .scrB s) unitsOk_scrollEdgeB
  case speedAdjust ev =>
    cases h; exact changes_others (othersActed_speedAdjust ev s) fun h => unitsOk_speedAdjust h ev
  case scrollPoll => cases h; exact changes_others (othersActed_scrollPoll s) unitsOk_scrollPoll
  case shutdown l => cases h; exact changes_sleepBoundary l s
  case raise e => cases h; exact changes_event e rfl
  case emit r => cases h; exact changes_emitReport r s
  case tick n => cases h; exact changes_advance n.toNat s
  case buttonMask => cases h; exact changes_setRet _ s
  case handlerReturn => cases h; exact .refl s
  case reserved => cases h

/-! ### The sensor task one rule step at a time -/

/-- Elementary changes, and the sensor task goes on at some position. -/
def ChangesPos (s t : State) : Prop := ∃ u p, Changes s u ∧ t = goTo p u

theorem changesPos_goTo {s u : State} (h : Changes s u) (p : SensorPos) : ChangesPos s (goTo p u) := ⟨u, p, h, rfl⟩

theorem changesPos_of {s t : State} (h : Changes s t) : ChangesPos s t := ⟨t, t.sensorPos, h, rfl⟩

theorem changesPos_after {s u t : State} (h : Changes s u) (k : ChangesPos u t) : ChangesPos s t := by
  obtain ⟨v, p, changes, rfl⟩ := k
  exact ⟨v, p, h.trans changes, rfl⟩

theorem changesPos_endWait (t0 : Time) (T : Nat) (p : SensorPos) (s : State) : ChangesPos s (endWait t0 T p s) := by
  rcases endWait_cases t0 T p s with h | ⟨_, h⟩ <;> rw [h]
  · exact changesPos_of (.refl s)
  · exact changesPos_goTo (changes_dropSlack s) p

theorem changesPos_endBusWait (t0 : Time) (T : Nat) (p : SensorPos) (s : State) :
    ChangesPos s (endBusWait t0 T p s) := by
  simp only [endBusWait]
  split
  · exact changesPos_of (.refl s)
  · refine changesPos_goTo (changes_of (.drawn _ fun short => ?_)) p
    have := of_decide_eq_true short
    omega

theorem changesPos_openCall {c : BusCall} {s t : State} (h : openCall c s = .ok t) : ChangesPos s t := by
  obtain ⟨rfl, _⟩ := openCall_ok h
  exact changesPos_goTo (.refl s) _

theorem changesPos_nextWrite {sc : ScriptId} {s t : State} (h : nextWrite sc s = .ok t) : ChangesPos s t := by
  rcases nextWrite_ok h with ⟨_, _, rfl⟩ | rfl <;> exact changesPos_goTo (.refl s) _

theorem changesPos_nextDiag {s t : State} (h : nextDiag s = .ok t) : ChangesPos s t := by
  rcases nextDiag_ok h with ⟨_, rfl⟩ | rfl <;> exact changesPos_goTo (.refl s) _

theorem changesPos_nextPoll (s : State) : ChangesPos s (nextPoll s) := by
  simp only [nextPoll]
  split
  · exact changesPos_goTo (.refl s) _
  · exact changesPos_goTo (changes_event _ rfl) _

theorem changesPos_sendCall (c : BusCall) (ts : Time) (s : State) : ChangesPos s (sendCall c ts s) := by
  have sent : Changes s (sendBytes (callBytes s.params c) s) := changes_seen _ rfl
  cases c with
  | entry sc a v => exact changesPos_goTo (sent.trans (changes_quiet rfl)) _
  | verify | diag | capture => exact changesPos_goTo sent _

theorem changesPos_answerCall {c : BusCall} {ts : Time} {s t : State} (h : answerCall c ts s = .ok t) :
    ChangesPos s t := by
  cases c with
  | entry sc a v => cases h; exact changesPos_goTo (changes_quiet rfl) _
  | verify | diag =>
    simp only [answerCall] at h
    split at h
    · cases h
    · rename_i asked
      cases h; exact changesPos_goTo (changes_askByte asked) _
    · rename_i asked
      cases h; exact changesPos_goTo (changes_askByte asked) _
  | capture =>
    simp only [answerCall] at h
    split at h
    · cases h
    · rename_i asked
      cases h; exact changesPos_goTo (changes_askBurst asked) _

theorem changesPos_afterCall {c : BusCall} {ts : Time} {r : Answer (List Byte)} {s t : State}
    (h : afterCall c ts r s = .ok t) : ChangesPos s t := by
  have attempted : Changes s (nextAttempt s) := changes_quiet rfl
  cases c <;> cases r
  case entry.ok => exact changesPos_after (changes_quiet (t := nextEntry s) rfl) (changesPos_nextWrite h)
  case entry.fault | diag.fault => cases h; exact changesPos_goTo (changes_fatalFault s) _
  case verify.ok =>
    simp only [afterCall] at h
    split at h <;> cases h
    · exact changesPos_goTo (changes_quiet rfl) _
    · exact changesPos_after attempted (changesPos_nextPoll _)
  case verify.fault => cases h; exact changesPos_goTo (attempted.trans (changes_fatalFault _)) _
  case diag.ok bytes =>
    exact changesPos_after (changes_quiet (t := nextEntry (storeDiag (bytes.headD 0) s)) rfl) (changesPos_nextDiag h)
  case capture.ok =>
    simp only [afterCall] at h
    split at h <;> cases h <;> exact changesPos_goTo (.refl s) _
  case capture.fault => cases h; exact changesPos_goTo (changes_event _ rfl) _

theorem changesPos_callStep {c : BusCall} {ph : BusPhase} {s t : State} (h : callStep c ph s = .ok t) :
    ChangesPos s t := by
  cases ph with
  | gap _ | settle _ | delay _ _ => cases h; exact changesPos_endBusWait _ _ _ s
  | assert => cases h; exact changesPos_goTo (changes_setNcs false s) _
  | release ts r => cases h; exact changesPos_goTo (changes_endTransaction _ s) _
  | send ts => cases h; exact changesPos_sendCall c ts s
  | answer ts => exact changesPos_answerCall h
  | returned ts r => exact changesPos_afterCall h

theorem changesPos_drainStep {s t : State} (h : drainStep s = .ok t) : ChangesPos s t := by
  simp only [drainStep] at h
  split at h
  · cases h; exact changesPos_goTo (.refl s) _
  · split at h <;> cases h
    exact changesPos_goTo (changes_emitReport _ s) _

theorem changesPos_pulseEndStep (s : State) : ChangesPos s (pulseEndStep s) := by
  refine changesPos_goTo ?_ .leave
  split
  · exact changes_quiet rfl
  · exact changes_setNcs true s

theorem changesPos_leaveStep (s : State) : ChangesPos s (leaveStep s) := by
  simp only [leaveStep]
  split <;> exact changesPos_goTo (changes_quiet rfl) _

theorem changesPos_beginStep {s t : State} (h : beginStep s = .ok t) : ChangesPos s t := by
  cases step : s.seqPc.step <;> simp only [beginStep, step] at h
  case ncsPulse => cases h; exact changesPos_goTo (changes_setNcs false s) _
  case first | repair | close => exact changesPos_nextWrite h
  case verify => cases h; exact changesPos_nextPoll s
  case diag => exact changesPos_nextDiag h
  case mode => cases h
  case wake | resetPulse | settle | mvalid | idle | stream | fail =>
    cases h; exact changesPos_goTo (changes_quiet rfl) _

theorem changesPos_sensorStep {s t : State} (h : sensorStep s = .ok t) : ChangesPos s t := by
  simp only [sensorStep] at h
  split at h
  · cases h
  cases pos : s.sensorPos <;> simp only [pos] at h
  case idle => exact changesPos_beginStep h
  case timed | sleeping => cases h; exact changesPos_endWait _ _ _ s
  case pulseEnd => cases h; exact changesPos_pulseEndStep s
  case leave => cases h; exact changesPos_leaveStep s
  case pollWait =>
    split at h
    · cases h; exact changesPos_of (.refl s)
    · exact changesPos_after (changes_dropSlack s) (changesPos_openCall h)
  case bus => exact changesPos_callStep h
  case drain => exact changesPos_drainStep h
  case emit => cases h; exact changesPos_goTo (changes_emitReport _ s) _
  case advance => cases h; exact changesPos_goTo (changes_of .advancedRead) _
  case capture =>
    split at h
    · exact changesPos_openCall h
    · cases h; exact changesPos_goTo (.refl s) _
  case push =>
    simp only [pushStep] at h
    split at h
    · cases h
    · rename_i pushed
      cases h; exact changesPos_goTo (changes_of (.pushed _ pushed)) _
  case boundary => cases h; exact changesPos_goTo (changes_sleepBoundary .sensor s) _
  case switched | sleep => cases h; exact changesPos_goTo (changes_quiet rfl) _

/-! ### Board commands, and the step of the machine -/

theorem changesPos_boardCommand {c : BoardCommand} {s t : State} (h : boardCommand c s = .ok t) : ChangesPos s t := by
  simp only [boardCommand] at h
  split at h
  · cases h
  cases c with
  | init =>
    simp only [startInit] at h
    split at h
    · cases h
    · split at h <;> cases h
      exact changesPos_of (changes_quiet rfl)
  | mode m => exact changesPos_of (changes_modeCommand h)
  | startMode m =>
    simp only [startMode] at h
    split at h
    · cases h
    · split at h
      · exact changesPos_after (changes_quiet (t := gotoStep .mode s) rfl) (changesPos_nextWrite h)
      · cases h

theorem changesPos_actStep (who : Agent) (a : Act) (s : State) : ChangesPos s (actStep who a s) :=
  changesPos_of (changes_others (othersActed_actStep who a s) (unitsOk_actStep who a s))

/-- All an outcome that goes on to the next item can be. -/
theorem finishOutcome_eq_next {o : Host.Outcome State Fault Refusal} {t : State} (h : finishOutcome o = .next t) :
    ∃ u, o = .next u ∧ t = finishItem u := by
  cases o with
  | next u => cases h; exact ⟨u, rfl, rfl⟩
  | fault f => cases h
  | refused r => cases h

/-- What an item and the way to the next one can do: elementary changes, a new position of the sensor task, and the program
goes on. -/
def ItemChanges (s t : State) : Prop :=
  ∃ u p e, Changes s u ∧ t = finishItem { u with sensorPos := p, ended := e }

theorem itemChanges_finishOutcome {o : Host.Outcome State Fault Refusal} {s t : State} (h : finishOutcome o = .next t)
    (item : ∀ v, o = .next v → ChangesPos s v) : ItemChanges s t := by
  obtain ⟨v, ran, rfl⟩ := finishOutcome_eq_next h
  obtain ⟨u, p, changes, rfl⟩ := item v ran
  exact ⟨u, p, u.ended, changes, rfl⟩

/-- All a step of the machine can do. -/
theorem step_changes {s t : State} (h : step s = .next t) : ItemChanges s t := by
  simp only [step] at h
  split at h
  · cases h
  · split at h
    · cases h
    · rename_i i _
      split at h
      · cases h
      · by_cases isEnd : i = .endProgram
        · subst isEnd
          cases h
          exact ⟨s, s.sensorPos, true, .refl s, rfl⟩
        · exact itemChanges_finishOutcome h fun _ ran => changesPos_of (changes_exec isEnd ran)
  · exact itemChanges_finishOutcome h fun _ ran => changesPos_boardCommand (toOutcome_eq_next.mp ran)
  · exact itemChanges_finishOutcome h fun _ ran => changesPos_of (changes_sensorTask (toOutcome_eq_next.mp ran))
  · exact itemChanges_finishOutcome h fun _ ran => changesPos_sensorStep (toOutcome_eq_next.mp ran)
  · refine itemChanges_finishOutcome h fun _ ran => ?_
    cases ran
    exact changesPos_actStep .environment _ s

end Sys2Proof.Machine
end

section
/-! PROOFS. O13, O14, O7: what every elementary change keeps, every step keeps (10_state.md R115, R116, R142, R152, R163,
R171; 42_ring_buffer.md R500, R501, R505; 60_exceptions.md R801, R850, R860). -/

namespace Sys2Proof.Machine

open Sys2Proof.Safety

variable {s t : State}

/-- What a merge can do: it changes slots, the read index and the overflow count, and raises an event (R501). -/
theorem mergeOldest_kept (h : mergeOldest s = .ok t) :
    ∃ l r c e, t = { s with rb := l, rbR := r, ovfCount := c, events := s.events ++ [e] } := by
  simp only [mergeOldest] at h
  split at h
  · split at h <;> cases h
    rename_i written
    simp only [writeSlot] at written
    split at written <;> cases written
    exact ⟨_, _, _, _, rfl⟩
  · cases h
  · cases h

/-! ### O13: the ring -/

/-- A state that agrees with a well-formed ring in the parameters, the slots and the indices has one. -/
theorem ringOk_congr (h : RingOk s) (same : (t.params, t.rb, t.rbW, t.rbR) = (s.params, s.rb, s.rbW, s.rbR)) :
    RingOk t := by
  simp only [Prod.mk.injEq] at same
  obtain ⟨params, rb, rbW, rbR⟩ := same
  constructor
  case params => rw [params]; exact h.params
  case slots => rw [rb, params]; exact h.slots
  case write => rw [rbW, params]; exact h.write
  case read => rw [rbR, params]; exact h.read

theorem ringOk_advanceRead (h : RingOk s) : RingOk (advanceRead s) :=
  ⟨h.params, h.slots, h.write, nextIndex_lt _ (Nat.zero_lt_of_lt h.read)⟩

/-- A merge rewrites one slot and moves the read index on (R501). -/
theorem ringOk_mergeOldest (h : RingOk s) (merged : mergeOldest s = .ok t) : RingOk t := by
  have next := nextIndex_lt (s := s) s.rbR (Nat.zero_lt_of_lt h.read)
  rw [mergeOldest_ok (h.slots ▸ h.read) (h.slots ▸ next)] at merged
  cases merged
  exact ⟨h.params, List.length_set.trans h.slots, h.write, next⟩

/-- A push moves the write index on, and the read index when they meet (R500). -/
theorem ringOk_pushSample {x : Sample} (h : RingOk s) (pushed : pushSample x s = .ok t) : RingOk t := by
  have nonempty := Nat.zero_lt_of_lt h.read
  obtain ⟨slots, read, count, _, rfl, size, place, _⟩ := pushSample_kept pushed
  refine ⟨h.params, size.trans h.slots, nextIndex_lt _ nonempty, ?_⟩
  rcases place with rfl | rfl
  · exact h.read
  · exact nextIndex_lt _ nonempty

theorem ringOk_change (change : Change s t) (h : RingOk s) : RingOk t := by
  cases change with
  | others frame _ => exact ringOk_congr h (by rw [frame.params, frame.rb, frame.rbW, frame.rbR])
  | driver frame _ _ _ => rw [frame]; exact ringOk_congr h rfl
  | drawn short _ => exact ringOk_congr h rfl
  | pushed x pushed => exact ringOk_pushSample h pushed
  | merged merged => exact ringOk_mergeOldest h merged
  | advancedRead => exact ringOk_advanceRead h

/-- Settles O13: the elementary changes of a step keep the ring, and the program going on is none of it. -/
theorem stepKeepsTheRing : Obligations.StepKeepsTheRing := by
  intro s t h stepped
  obtain ⟨u, p, e, changes, rfl⟩ := step_changes stepped
  exact ringOk_congr (changes_induction (fun _ _ => ringOk_change) changes h) rfl

/-! ### O14: the buttons and the scroll decoder -/

theorem unitsOk_change (change : Change s t) (h : UnitsOk s) : UnitsOk t := by
  cases change with
  | others _ units => exact units h
  | driver frame _ _ _ => rw [frame]; exact unitsOk_congr h rfl
  | drawn short _ => exact unitsOk_congr h rfl
  | pushed x pushed => obtain ⟨_, _, _, _, rfl, _⟩ := pushSample_kept pushed; exact unitsOk_congr h rfl
  | merged merged => obtain ⟨_, _, _, _, rfl⟩ := mergeOldest_kept merged; exact unitsOk_congr h rfl
  | advancedRead => exact unitsOk_congr h rfl

/-- Settles O14: the sensor task leaves the buttons and the scroll decoder alone, and their own operations keep them legal. -/
theorem stepKeepsTheUnits : Obligations.StepKeepsTheUnits := by
  intro s t h stepped
  obtain ⟨u, p, e, changes, rfl⟩ := step_changes stepped
  exact unitsOk_congr (changes_induction (fun _ _ => unitsOk_change) changes h) rfl

/-! ### O7: the observations -/

/-- From `s` to `t` the observations were only added to, and neither the program nor the sensor task's position moved. -/
structure Observed (s t : State) : Prop where
  params : t.params = s.params
  agenda : t.agenda = s.agenda
  pos : t.pos = s.pos
  sensorPos : t.sensorPos = s.sensorPos
  ended : t.ended = s.ended
  reports : ∃ l, t.reports = s.reports ++ l
  events : ∃ l, t.events = s.events ++ l
  wire : ∃ l, t.wire = s.wire ++ l

/-- What was added to a trace that was added to was added to it. -/
theorem appended_trans {α : Type} {a b c : List α} (h : ∃ l, b = a ++ l) (k : ∃ l, c = b ++ l) : ∃ l, c = a ++ l := by
  obtain ⟨l, rfl⟩ := h
  obtain ⟨m, rfl⟩ := k
  exact ⟨l ++ m, List.append_assoc ..⟩

theorem appended_nil {α : Type} (a : List α) : ∃ l, a = a ++ l := ⟨[], (List.append_nil a).symm⟩

theorem Observed.refl (s : State) : Observed s s :=
  ⟨rfl, rfl, rfl, rfl, rfl, appended_nil _, appended_nil _, appended_nil _⟩

theorem Observed.trans {u : State} (h : Observed s t) (k : Observed t u) : Observed s u where
  params := k.params.trans h.params
  agenda := k.agenda.trans h.agenda
  pos := k.pos.trans h.pos
  sensorPos := k.sensorPos.trans h.sensorPos
  ended := k.ended.trans h.ended
  reports := appended_trans h.reports k.reports
  events := appended_trans h.events k.events
  wire := appended_trans h.wire k.wire

theorem observed_change (change : Change s t) : Observed s t := by
  cases change with
  | others frame _ =>
    exact ⟨frame.params, frame.agenda, frame.pos, frame.sensorPos, frame.ended, frame.reports, frame.events,
      [], by rw [frame.wire, List.append_nil]⟩
  | driver frame reports events wire => constructor <;> first | assumption | rw [frame]
  | drawn | advancedRead => exact ⟨rfl, rfl, rfl, rfl, rfl, appended_nil _, appended_nil _, appended_nil _⟩
  | pushed x pushed =>
    obtain ⟨_, _, _, events, rfl, _⟩ := pushSample_kept pushed
    exact ⟨rfl, rfl, rfl, rfl, rfl, appended_nil _, ⟨events, rfl⟩, appended_nil _⟩
  | merged merged =>
    obtain ⟨_, _, _, event, rfl⟩ := mergeOldest_kept merged
    exact ⟨rfl, rfl, rfl, rfl, rfl, appended_nil _, ⟨[event], rfl⟩, appended_nil _⟩

theorem observed_exec {i : Instr} (notEnd : i ≠ .endProgram) (h : exec i s = .next t) : Observed s t :=
  changes_induction (fun _ _ change seen => seen.trans (observed_change change)) (changes_exec notEnd h) (.refl s)

/-- A run of one step is that step. -/
theorem run_one (M : Host.Core) (s : M.State) : M.run 1 s = M.step s := by
  simp only [Host.Core.run]
  cases M.step s <;> rfl

/-- A state with one item to run. -/
def withItem (x : Item) (s : State) : State := { s with agenda := [x], ended := false }

theorem runItems_single {x : Item} : runItems [x] s = step (withItem x s) := run_one Sys2Proof.core _

/-- A rule step of the sensor task, run as an item of its own. -/
theorem runItems_sensorStep (h : runItems [.sensorStep] s = .next t) :
    ∃ u, sensorStep (withItem .sensorStep s) = .ok u ∧ t = finishItem u := by
  rw [runItems_single] at h
  obtain ⟨u, ran, rfl⟩ := finishOutcome_eq_next (o := sensorStepItem _) h
  exact ⟨u, toOutcome_eq_next.mp ran, rfl⟩

/-- Settles O7: an instruction is elementary changes, and a rule step of the sensor task moves that task alone. -/
theorem observationsOnlyGrow : Obligations.ObservationsOnlyGrow := by
  refine ⟨fun i s t h => ?_, fun s t h => ?_⟩
  · by_cases isEnd : i = .endProgram
    · subst isEnd
      cases h
      exact ⟨rfl, rfl, rfl, rfl, absurd rfl, appended_nil _, appended_nil _, appended_nil _⟩
    · have seen := observed_exec isEnd h
      exact ⟨seen.params, seen.agenda, seen.pos, seen.sensorPos, fun _ => seen.ended, seen.reports, seen.events,
        seen.wire⟩
  · obtain ⟨u, ran, rfl⟩ := runItems_sensorStep h
    have moved := sensorMoved_sensorStep ran
    exact ⟨moved.params, moved.now, moved.pins, moved.irqPending, moved.mlState, moved.mlFlag, moved.axState,
      moved.axEvent, moved.axConfirm, moved.axHoldTs, moved.scPhaseA, moved.scPhaseB, moved.scDir, moved.scSpeed,
      moved.scStopped, moved.scEvent, moved.shutdownReq, moved.runButton, moved.runScroll, moved.buttonK,
      moved.buttonSleep, moved.scrollK, moved.scrollSleep, moved.reports, moved.events, moved.wire⟩

end Sys2Proof.Machine
end

section
/-! PROOFS. O19: only a wait of a transaction that a negative slack ends below its minimum sets `BUS_CORRUPT`
(40_register_bus.md R428, log 7). -/

namespace Sys2Proof.Machine

open Sys2Proof.Safety

variable {s t : State}

/-! ### No negative slack, no corruption -/

theorem nextSlack_nonneg (h : ∀ x ∈ s.slacks, 0 ≤ x) : 0 ≤ nextSlack s := by
  cases slacks : s.slacks with
  | nil => exact Int.le_of_eq (nextSlack_nil slacks).symm
  | cons x rest =>
    have head : nextSlack s = x := by rw [nextSlack, slacks, List.headD_cons]
    exact head ▸ h x (slacks ▸ List.mem_cons_self ..)

/-- With no negative slack to come, an elementary change neither corrupts the bus nor leaves a negative slack. -/
theorem change_incorrupt (change : Change s t) (h : ∀ x ∈ s.slacks, 0 ≤ x) :
    t.busCorrupt = s.busCorrupt ∧ ∀ x ∈ t.slacks, 0 ≤ x := by
  cases change with
  | others frame _ => exact ⟨frame.busCorrupt, frame.slacks ▸ h⟩
  | driver frame _ _ _ => rw [frame]; exact ⟨rfl, h⟩
  | drawn short negative =>
    have notShort : short = false := by
      cases short with
      | false => rfl
      | true => exact absurd (nextSlack_nonneg h) (Int.not_le.mpr (negative rfl))
    rw [notShort, corruptIf_false]
    exact ⟨rfl, fun x hx => h x (List.mem_of_mem_tail hx)⟩
  | pushed x pushed => obtain ⟨_, _, _, _, rfl, _⟩ := pushSample_kept pushed; exact ⟨rfl, h⟩
  | merged merged => obtain ⟨_, _, _, _, rfl⟩ := mergeOldest_kept merged; exact ⟨rfl, h⟩
  | advancedRead => exact ⟨rfl, h⟩

theorem step_incorrupt (stepped : step s = .next t) (h : ∀ x ∈ s.slacks, 0 ≤ x) :
    t.busCorrupt = s.busCorrupt ∧ ∀ x ∈ t.slacks, 0 ≤ x := by
  obtain ⟨u, p, e, changes, rfl⟩ := step_changes stepped
  have kept : u.busCorrupt = s.busCorrupt ∧ ∀ x ∈ u.slacks, 0 ≤ x := by
    refine changes_induction (P := fun v => v.busCorrupt = s.busCorrupt ∧ ∀ x ∈ v.slacks, 0 ≤ x) ?_ changes ⟨rfl, h⟩
    rintro v w change ⟨same, nonneg⟩
    obtain ⟨kept, left⟩ := change_incorrupt change nonneg
    exact ⟨kept.trans same, left⟩
  exact kept

/-! ### The waits of a transaction run to its end -/

/-- A wait of `T` that a slack ends below its minimum. -/
def DrawnShort (T : Nat) (x : Int) : Prop := ((T : Int) + x).toNat < T

/-- A gap after the previous transaction that a slack ends below its minimum, time already passed counting towards it. -/
def GapShort (s : State) (x : Int) : Prop :=
  max ((gapNeeded s.params s.busLast : Int) + x).toNat (elapsedSince s.now (lastEnd s)) < gapNeeded s.params s.busLast

section
variable (hi : s.interludes = [])
include hi

theorem busWaitFrom_interludes (t0 : Time) (T : Nat) : (busWaitFrom t0 T s).interludes = [] := by
  simp only [busWaitFrom, yield_nil hi]
  split <;> exact hi

/-- A bus wait sets `BUS_CORRUPT` exactly if it ends below its minimum (R428). -/
theorem busWaitFrom_busCorrupt (t0 : Time) (T : Nat) :
    (busWaitFrom t0 T s).busCorrupt = true ↔
      s.busCorrupt = true ∨ max ((T : Int) + nextSlack s).toNat (elapsedSince s.now t0) < T := by
  simp only [busWaitFrom, yield_nil hi]
  split
  · rename_i short; exact iff_of_true rfl (.inr short)
  · rename_i long; exact (or_iff_left long).symm

theorem busWait_busCorrupt (T : Nat) :
    (busWait T s).busCorrupt = true ↔ s.busCorrupt = true ∨ DrawnShort T (nextSlack s) := by
  rw [busWait, busWaitFrom_busCorrupt hi, elapsedSince_self, Nat.max_zero, DrawnShort]

theorem busAssert_interludes : (busAssert s).interludes = [] := busWaitFrom_interludes hi _ _

theorem busAssert_busCorrupt :
    (busAssert s).busCorrupt = true ↔ s.busCorrupt = true ∨ GapShort s (nextSlack s) :=
  busWaitFrom_busCorrupt hi _ _

theorem busSend_interludes (bytes : List Byte) : (busSend bytes s).interludes = [] := busWaitFrom_interludes hi _ _

theorem busSend_busCorrupt (bytes : List Byte) :
    (busSend bytes s).busCorrupt = true ↔ s.busCorrupt = true ∨ DrawnShort s.params.tNcsSclk (nextSlack s) :=
  busWait_busCorrupt hi _

/-- A transaction up to the bytes it sends: its gap and its settle time (R410, R425). -/
theorem opened_busCorrupt {g c : Int} {rest : List Int} (hs : s.slacks = g :: c :: rest) (bytes : List Byte) :
    (busSend bytes (busAssert s)).busCorrupt = true ↔
      s.busCorrupt = true ∨ GapShort s g ∨ DrawnShort s.params.tNcsSclk c := by
  have gap : nextSlack s = g := by rw [nextSlack, hs, List.headD_cons]
  have settle : nextSlack (busAssert s) = c := by rw [nextSlack, busAssert_slacks, hs, List.tail_cons, List.headD_cons]
  rw [busSend_busCorrupt (busAssert_interludes hi), busAssert_busCorrupt hi, gap, settle, busAssert_params, or_assoc]

/-- A read or a burst up to the sensor's answer: its gap, its settle time and its delay (R415, R420). -/
theorem delayed_busCorrupt {g c d : Int} {rest : List Int} (hs : s.slacks = g :: c :: d :: rest) (bytes : List Byte)
    (T : Nat) :
    (busWait T (busSend bytes (busAssert s))).busCorrupt = true ↔
      s.busCorrupt = true ∨ GapShort s g ∨ DrawnShort s.params.tNcsSclk c ∨ DrawnShort T d := by
  have delay : nextSlack (busSend bytes (busAssert s)) = d := by
    rw [nextSlack, busSend_slacks, busAssert_slacks, hs, List.tail_cons, List.tail_cons, List.headD_cons]
  rw [busWait_busCorrupt (busSend_interludes (busAssert_interludes hi) bytes), opened_busCorrupt hi hs, delay,
    or_assoc, or_assoc]

end

/-! ### The sensor's answers -/

theorem askByte_answers {rest : List ReadAnswer} (h : (∃ b, s.oracle = .byte b :: rest) ∨ s.oracle = .fault :: rest) :
    ∃ r t, askByte s = .ok (r, t) ∧ t.busCorrupt = s.busCorrupt := by
  rcases h with ⟨b, h⟩ | h <;> rw [askByte, h] <;> exact ⟨_, _, rfl, rfl⟩

theorem askBurst_answers {rest : List ReadAnswer}
    (h : (∃ bytes, bytes.length = 12 ∧ s.oracle = .burst bytes :: rest) ∨ s.oracle = .fault :: rest) :
    ∃ r t, askBurst s = .ok (r, t) ∧ t.busCorrupt = s.busCorrupt := by
  rcases h with ⟨bytes, twelve, h⟩ | h <;> rw [askBurst, h]
  · exact ⟨_, _, if_pos twelve, rfl⟩
  · exact ⟨_, _, rfl, rfl⟩

/-! ### Transactions issued on their own -/

theorem exec_busWrite_next {a : Addr} {v : Byte} (permitted : busPermitted .write s = true) :
    ∃ t, exec (.busWrite a v) s = .next t ∧
      t.busCorrupt = (busSend [commandByte Config.dirWrite a, v] (busAssert s)).busCorrupt := by
  refine ⟨_, toOutcome_eq_next.mpr (if_pos permitted), ?_⟩
  exact busRelease_busCorrupt _ _

theorem exec_busRead_next {a : Addr} {rest : List ReadAnswer} (permitted : busPermitted .read s = true)
    (notBurst : a ≠ s.params.burstAddr) (answer : (∃ b, s.oracle = .byte b :: rest) ∨ s.oracle = .fault :: rest) :
    ∃ t, exec (.busRead a) s = .next t ∧ t.busCorrupt =
      (busWait s.params.tSrad (busSend [commandByte (!Config.dirWrite) a] (busAssert s))).busCorrupt := by
  obtain ⟨r, u, asked, same⟩ := askByte_answers
    (s := busWait s.params.tSrad (busSend [commandByte (!Config.dirWrite) a] (busAssert s)))
    (by simpa only [busWait_oracle, busSend_oracle, busAssert_oracle] using answer)
  refine ⟨setRet (.read r) (busRelease .read u), toOutcome_eq_next.mpr ?_, (busRelease_busCorrupt _ _).trans same⟩
  rw [issueRead, if_pos permitted, busRead, if_neg notBurst, asked]

theorem exec_busBurst_next {rest : List ReadAnswer} (permitted : busPermitted .burst s = true)
    (answer : (∃ bytes, bytes.length = 12 ∧ s.oracle = .burst bytes :: rest) ∨ s.oracle = .fault :: rest) :
    ∃ t, exec (.busBurst s.params.burstAddr 12) s = .next t ∧ t.busCorrupt =
      (busWait s.params.tSradMotbr
        (busSend [commandByte (!Config.dirWrite) s.params.burstAddr] (busAssert s))).busCorrupt := by
  obtain ⟨r, u, asked, same⟩ := askBurst_answers
    (s := busWait s.params.tSradMotbr (busSend [commandByte (!Config.dirWrite) s.params.burstAddr] (busAssert s)))
    (by simpa only [busWait_oracle, busSend_oracle, busAssert_oracle] using answer)
  have theBurst : ¬ (s.params.burstAddr ≠ s.params.burstAddr ∨ 12 ≠ Config.burstLen) := by simp [Config.burstLen]
  refine ⟨setRet (.burst r) (busRelease .burst u), toOutcome_eq_next.mpr ?_, (busRelease_busCorrupt _ _).trans same⟩
  rw [issueBurst, if_neg theBurst, if_pos permitted, busBurst, asked]

/-! ### Transactions taken step by step -/

/-- The end of a wait of a transaction, once its time has passed (R428). -/
theorem endBusWait_passed {t0 : Time} {T : Nat} (passed : ((T : Int) + nextSlack s).toNat ≤ elapsedSince s.now t0)
    (p : SensorPos) :
    endBusWait t0 T p s = goTo p (corruptIf (decide (elapsedSince s.now t0 < T)) (dropSlack s)) :=
  if_neg (Nat.not_lt.mpr passed)

theorem sensorStep_bus {c : BusCall} {ph : BusPhase} (runs : s.runSensor = true) (pos : s.sensorPos = .bus c ph) :
    sensorStep s = callStep c ph s := by
  simp only [sensorStep, runs, pos, Bool.true_eq_false, if_false]

theorem runItems_sensorStep_next {u : State}
    (h : sensorStep (withItem .sensorStep s) = .ok u) :
    runItems [.sensorStep] s = .next (finishItem u) := by
  rw [runItems_single]
  show finishOutcome (sensorStepItem _) = _
  rw [sensorStepItem, h]
  rfl

/-- A transaction that stands in a wait whose time has passed ends it, corrupting the bus exactly if it was too short. -/
theorem runItems_busWait {c : BusCall} {ph : BusPhase} {t0 : Time} {T : Nat} {p : SensorPos}
    (runs : s.runSensor = true) (pos : s.sensorPos = .bus c ph)
    (waits : callStep c ph (withItem .sensorStep s) = .ok (endBusWait t0 T p (withItem .sensorStep s)))
    (passed : ((T : Int) + nextSlack s).toNat ≤ elapsedSince s.now t0) :
    ∃ t, runItems [.sensorStep] s = .next t ∧
      (t.busCorrupt = true ↔ s.busCorrupt = true ∨ elapsedSince s.now t0 < T) := by
  have ran := (sensorStep_bus (s := withItem .sensorStep s) runs pos).trans waits
  rw [endBusWait_passed (s := withItem .sensorStep s) passed] at ran
  refine ⟨_, runItems_sensorStep_next ran, ?_⟩
  show (s.busCorrupt || decide (elapsedSince s.now t0 < T)) = true ↔ _
  rw [Bool.or_eq_true, decide_eq_true_iff]

/-- Settles O19: of the elementary changes only the end of a wait sets `BUS_CORRUPT`, and a transaction has its gap, its settle
time and, but for a write, its delay. -/
theorem onlyShortWaitsCorrupt : Obligations.OnlyShortWaitsCorrupt := by
  refine ⟨fun s t h stepped => step_incorrupt stepped h, ?write, ?read, ?burst, ?stepwise⟩
  case write =>
    intro a v s g c hi hs permitted
    obtain ⟨t, ran, corrupt⟩ := exec_busWrite_next (a := a) (v := v) permitted
    exact ⟨t, ran, corrupt ▸ opened_busCorrupt hi hs _⟩
  case read =>
    intro a s g c d rest hi hs permitted notBurst answer
    obtain ⟨t, ran, corrupt⟩ := exec_busRead_next permitted notBurst answer
    exact ⟨t, ran, corrupt ▸ delayed_busCorrupt hi hs _ _⟩
  case burst =>
    intro s g c d rest hi hs permitted answer
    obtain ⟨t, ran, corrupt⟩ := exec_busBurst_next permitted answer
    exact ⟨t, ran, corrupt ▸ delayed_busCorrupt hi hs _ _⟩
  case stepwise =>
    intro c ph t0 T s x runs pos hs standing passed
    have slack : nextSlack s = x := by rw [nextSlack, hs, List.headD_cons]
    rw [← slack] at passed
    rcases standing with ⟨rfl, rfl⟩ | ⟨rfl, rfl⟩ | ⟨⟨ts, rfl⟩, read⟩
    · exact runItems_busWait (p := .bus c .assert) runs pos rfl passed
    · exact runItems_busWait (p := .bus c (.send t0)) runs pos rfl passed
    · have delay : callDelay s.params c = T := by
        rcases read with ⟨rfl | ⟨a, rfl⟩, rfl⟩ | ⟨rfl, rfl⟩ <;> rfl
      subst delay
      exact runItems_busWait (p := .bus c (.answer ts)) runs pos rfl passed

end Sys2Proof.Machine
end

section
/-! PROOFS. O20: handlers and the button and scroll tasks never touch the bus outputs or the bus timing state (10_state.md
R172). What `OthersActed` says of their operations, and a wait or the end of a loop, leave both alone. -/

namespace Sys2Proof.Machine

open Sys2Proof.Safety

/-- From `s` to `t` nobody touched the bus outputs or the bus timing state. -/
def BusUntouched (s t : State) : Prop :=
  t.power = s.power ∧ t.ncs = s.ncs ∧ t.nreset = s.nreset ∧ t.busLast = s.busLast ∧ t.busLastEnd = s.busLastEnd ∧
    t.busCorrupt = s.busCorrupt ∧ t.wire = s.wire

variable {s t u : State}

theorem BusUntouched.refl (s : State) : BusUntouched s s := ⟨rfl, rfl, rfl, rfl, rfl, rfl, rfl⟩

theorem BusUntouched.trans (h : BusUntouched s t) (k : BusUntouched t u) : BusUntouched s u := by
  obtain ⟨hPower, hNcs, hNreset, hLast, hEnd, hCorrupt, hWire⟩ := h
  obtain ⟨kPower, kNcs, kNreset, kLast, kEnd, kCorrupt, kWire⟩ := k
  exact ⟨kPower.trans hPower, kNcs.trans hNcs, kNreset.trans hNreset, kLast.trans hLast, kEnd.trans hEnd,
    kCorrupt.trans hCorrupt, kWire.trans hWire⟩

theorem busUntouched_of_others (h : OthersActed s t) : BusUntouched s t :=
  ⟨h.power, h.ncs, h.nreset, h.busLast, h.busLastEnd, h.busCorrupt, h.wire⟩

theorem busUntouched_wait (who : Agent) (T : Nat) (s : State) : BusUntouched s (wait who T s) :=
  ⟨waitFrom_power .., waitFrom_ncs .., waitFrom_nreset .., waitFrom_busLast .., waitFrom_busLastEnd ..,
    waitFrom_busCorrupt .., waitFrom_wire ..⟩

theorem busUntouched_sleepBoundary (l : Loop) (s : State) : BusUntouched s (sleepBoundary l s) := by
  simp only [sleepBoundary]
  split
  · cases l <;> exact .refl s
  · exact .refl s

/-! ### Cycles and handlers -/

section
variable {sleep : State → State} (hsleep : ∀ s, BusUntouched s (sleep s))
include hsleep

theorem busUntouched_buttonCycleWith (h : buttonCycleWith sleep s = .ok t) : BusUntouched s t := by
  simp only [buttonCycleWith] at h
  split at h <;> cases h
  have calls := busUntouched_of_others (othersActed_buttonCalls (buttonToDo s) (buttonIdle s))
  exact calls.trans <| (hsleep _).trans (busUntouched_sleepBoundary .button _)

theorem busUntouched_scrollCycleWith (h : scrollCycleWith sleep s = .ok t) : BusUntouched s t := by
  simp only [scrollCycleWith] at h
  split at h <;> cases h
  have calls := busUntouched_of_others (othersActed_scrollCalls (scrollToDo s) (scrollIdle s))
  exact calls.trans <| (hsleep _).trans (busUntouched_sleepBoundary .scroll _)

end

theorem busUntouched_dispatch {p : Pin} (h : dispatch p s = .ok t) : BusUntouched s t := by
  simp only [dispatch] at h
  split at h <;> cases h
  exact busUntouched_of_others (othersActed_handlerEntry p s)

/-- A step of another agent, run as an item of its own. -/
theorem runItems_act (a : Act) (s : State) :
    runItems [.act a] s = .next (finishItem (actStep .environment a (withItem (.act a) s))) := runItems_single

/-- Settles O20: the operations of R172's other agents, one by one, and their steps. -/
theorem onlyTheSensorTouchesTheBus : Obligations.OnlyTheSensorTouchesTheBus := by
  refine ⟨fun i s t h who => ?_, fun a s t h => ?_⟩
  · show BusUntouched s t
    rcases who with ⟨p, rfl⟩ | ⟨p, rfl⟩ | rfl | ⟨b, rfl⟩ | ⟨a, rfl⟩ | rfl | rfl | rfl | rfl | rfl | ⟨b, rfl⟩ | ⟨a, rfl⟩
      | ⟨a, rfl⟩ | rfl | rfl | rfl | ⟨ev, rfl⟩
    · exact busUntouched_dispatch (toOutcome_eq_next.mp h)
    · exact busUntouched_dispatch (toOutcome_eq_next.mp h)
    · cases h; exact .refl s
    · cases h; exact busUntouched_of_others (othersActed_mainEdge b s)
    · cases h; exact busUntouched_of_others (othersActed_auxEdge a s)
    · cases h; exact busUntouched_of_others (othersActed_handler .scrA s)
    · cases h; exact busUntouched_of_others (othersActed_handler .scrB s)
    · exact busUntouched_buttonCycleWith .refl (toOutcome_eq_next.mp h)
    · exact busUntouched_buttonCycleWith (busUntouched_wait _ _) (toOutcome_eq_next.mp h)
    · cases h; exact .refl s
    · cases h; exact busUntouched_of_others (othersActed_latchPoll b s)
    · cases h; exact busUntouched_of_others (othersActed_auxConfirm a s)
    · cases h; exact busUntouched_of_others (othersActed_auxPoll a s)
    · exact busUntouched_scrollCycleWith .refl (toOutcome_eq_next.mp h)
    · exact busUntouched_scrollCycleWith (busUntouched_wait _ _) (toOutcome_eq_next.mp h)
    · cases h; exact busUntouched_of_others (othersActed_scrollPoll s)
    · cases h; exact busUntouched_of_others (othersActed_speedAdjust ev s)
  · rw [runItems_act] at h
    cases h
    have acted := busUntouched_of_others (othersActed_actStep .environment a (withItem (.act a) s))
    exact acted

end Sys2Proof.Machine
end

section
/-! PROOFS. O12: the layout of the status registers (10_state.md R170). Fields packed one above the other add up
(`Packs.field`), so a register, as a number, is the sum of its fields at their places. -/

namespace Sys2Proof.Machine

/-- A register that holds a number in its lowest bits, its other bits 0. -/
structure Packs (r : BitVec 32) (width n : Nat) : Prop where
  holds : r.toNat = n
  below : n < 2 ^ width

theorem packs_none : Packs 0#32 0 0 := ⟨rfl, Nat.one_pos⟩

/-- A field at its place, as a number. -/
theorem toNat_srField {w : Nat} (v : BitVec w) (place : Nat) (fits : place + w ≤ 32) :
    (srField v place).toNat = 2 ^ place * v.toNat := by
  have shifted : 2 ^ place * v.toNat < 2 ^ 32 :=
    calc 2 ^ place * v.toNat < 2 ^ place * 2 ^ w := Nat.mul_lt_mul_of_pos_left v.isLt (Nat.two_pow_pos place)
      _ = 2 ^ (place + w) := (Nat.pow_add 2 place w).symm
      _ ≤ 2 ^ 32 := Nat.pow_le_pow_right (by decide) fits
  have unshifted : v.toNat < 2 ^ 32 :=
    Nat.lt_of_le_of_lt (Nat.le_mul_of_pos_left _ (Nat.two_pow_pos place)) shifted
  rw [srField, BitVec.toNat_shiftLeft, BitVec.toNat_setWidth, Nat.mod_eq_of_lt unshifted, Nat.shiftLeft_eq,
    Nat.mul_comm, Nat.mod_eq_of_lt shifted]

/-- A field at the place where what is packed so far ends. -/
theorem Packs.field {r : BitVec 32} {place n w : Nat} (h : Packs r place n) (v : BitVec w) (fits : place + w ≤ 32) :
    Packs (r ||| srField v place) (place + w) (n + 2 ^ place * v.toNat) := by
  obtain ⟨holds, below⟩ := h
  constructor
  · rw [BitVec.toNat_or, holds, toNat_srField v place fits, Nat.or_comm, ← Nat.two_pow_add_eq_or_of_lt below,
      Nat.add_comm]
  · have top : 2 ^ place * (v.toNat + 1) ≤ 2 ^ place * 2 ^ w := Nat.mul_le_mul_left _ v.isLt
    rw [Nat.pow_add]
    rw [Nat.mul_add_one] at top
    omega

/-- A bit at that place. -/
theorem Packs.bit {r : BitVec 32} {place n : Nat} (h : Packs r place n) (b : Bool) (fits : place + 1 ≤ 32) :
    Packs (r ||| srBit b place) (place + 1) (n + 2 ^ place * b.toNat) := by
  have field := h.field (BitVec.ofBool b) fits
  rwa [BitVec.toNat_ofBool] at field

/-- The lowest field of a register. -/
theorem packs_field {w : Nat} (v : BitVec w) (fits : w ≤ 32) : Packs (srField v 0) w v.toNat := by
  have field := packs_none.field v (by omega)
  rwa [BitVec.zero_or, Nat.zero_add, Nat.zero_add, Nat.pow_zero, Nat.one_mul] at field

/-- The lowest bit of a register. -/
theorem packs_bit (b : Bool) : Packs (srBit b 0) 1 b.toNat := by
  have field := packs_field (BitVec.ofBool b) (by decide)
  rwa [BitVec.toNat_ofBool] at field

/-- SR23 and SR24. -/
theorem packs_srPins (v : PerPin Bool) :
    Packs (srPins v) 9 (v.lNo.toNat + 2 * v.lNc.toNat + 4 * v.rNo.toNat + 8 * v.rNc.toNat + 16 * v.m.toNat
      + 32 * v.s4.toNat + 64 * v.s5.toNat + 128 * v.scrA.toNat + 256 * v.scrB.toNat) :=
  (packs_bit v.lNo).bit v.lNc (by decide) |>.bit v.rNo (by decide) |>.bit v.rNc (by decide) |>.bit v.m (by decide)
    |>.bit v.s4 (by decide) |>.bit v.s5 (by decide) |>.bit v.scrA (by decide) |>.bit v.scrB (by decide)

/-- SR10 and SR11. -/
theorem packs_srLatch (s : State) (b : MainButton) :
    Packs (srLatch s b) 3
      ((contactBit (perMainGet s.mlState b)).toNat + 2 * (handshakeCode (perMainGet s.mlFlag b)).toNat) :=
  (packs_bit _).field _ (by decide)

/-- SR12 to SR14: a counter below 16 is shown whole. -/
theorem packs_srAux (s : State) (a : AuxButton) (small : perAuxGet s.axConfirm a < 16) :
    Packs (srAux s a) 6
      ((contactBit (perAuxGet s.axState a)).toNat + 2 * (perAuxGet s.axEvent a).toNat
        + 4 * perAuxGet s.axConfirm a) := by
  have packed := (packs_bit (contactBit (perAuxGet s.axState a))).bit (perAuxGet s.axEvent a) (by decide)
    |>.field (BitVec.ofNat 4 (perAuxGet s.axConfirm a)) (by decide)
  rwa [BitVec.toNat_ofNat, Nat.mod_eq_of_lt small] at packed

/-- An index below 256 is shown whole. -/
theorem toNat_ofNat_byte {i : Nat} (small : i < 256) : (BitVec.ofNat 8 i).toNat = i := by
  rw [BitVec.toNat_ofNat, Nat.mod_eq_of_lt small]

theorem statusReg_none (s : State) {n : Nat} (h : 25 < n) : statusReg s n = none := by
  obtain ⟨k, rfl⟩ : ∃ k, n = k + 26 := ⟨n - 26, by omega⟩
  rfl

/-- The five diagnostic bytes. -/
theorem statusReg_diag (s : State) : ∀ k < 5, statusReg s (2 + k) = some (s.diag.getD k 0).toNat
  | 0, _ | 1, _ | 2, _ | 3, _ | 4, _ => rfl
  | k + 5, h => absurd h (by omega)

theorem statusReg_latch (s : State) :
    ∀ b n, (b, n) ∈ [(MainButton.left, 10), (.right, 11)] → statusReg s n =
      some ((contactBit (perMainGet s.mlState b)).toNat + 2 * (handshakeCode (perMainGet s.mlFlag b)).toNat) := by
  intro b n place
  have shown : statusReg s n = some (srLatch s b).toNat := by
    simp only [List.mem_cons, Prod.mk.injEq, List.not_mem_nil, or_false] at place
    obtain ⟨rfl, rfl⟩ | ⟨rfl, rfl⟩ := place <;> rfl
  exact shown.trans (congrArg some (packs_srLatch s b).holds)

theorem statusReg_aux (s : State) :
    ∀ a n, (a, n) ∈ [(AuxButton.m, 12), (.s4, 13), (.s5, 14)] → perAuxGet s.axConfirm a < 16 → statusReg s n =
      some ((contactBit (perAuxGet s.axState a)).toNat + 2 * (perAuxGet s.axEvent a).toNat
        + 4 * perAuxGet s.axConfirm a) := by
  intro a n place small
  have shown : statusReg s n = some (srAux s a).toNat := by
    simp only [List.mem_cons, Prod.mk.injEq, List.not_mem_nil, or_false] at place
    obtain ⟨rfl, rfl⟩ | ⟨rfl, rfl⟩ | ⟨rfl, rfl⟩ := place <;> rfl
  exact shown.trans (congrArg some (packs_srAux s a small).holds)

theorem statusReg_hold (s : State) :
    ∀ a n, (a, n) ∈ [(AuxButton.m, 15), (.s4, 16), (.s5, 17)] →
      statusReg s n = some (perAuxGet s.axHoldTs a).toNat := by
  intro a n place
  simp only [List.mem_cons, Prod.mk.injEq, List.not_mem_nil, or_false] at place
  obtain ⟨rfl, rfl⟩ | ⟨rfl, rfl⟩ | ⟨rfl, rfl⟩ := place <;> rfl

/-- Settles O12, register by register. -/
theorem statusRegisterLayout : Obligations.StatusRegisterLayout := by
  intro s
  refine ⟨?driver, ?lines, statusReg_diag s, fun small => congrArg some (toNat_ofNat_byte small),
    fun small => congrArg some (toNat_ofNat_byte small), rfl, statusReg_latch s, statusReg_aux s, statusReg_hold s,
    ?scroll, rfl, rfl, rfl, rfl, congrArg some (packs_srPins s.pins).holds,
    congrArg some (packs_srPins s.irqPending).holds, ?loops, fun _ => statusReg_none s, rfl, rfl, rfl, rfl, rfl, rfl⟩
  case driver =>
    have packed := (packs_field (drvStateCode s.drvState) (by decide)).bit s.degraded (by decide)
      |>.field (opModeBits s.mode) (by decide)
    exact congrArg some packed.holds
  case lines =>
    have packed := (packs_bit s.power).bit s.ncs (by decide) |>.bit s.nreset (by decide)
      |>.field (busKindCode s.busLast) (by decide)
    exact congrArg some packed.holds
  case scroll =>
    have packed := (packs_bit s.scPhaseA).bit s.scPhaseB (by decide)
      |>.field (scrollDirCode s.scDir) (by decide) |>.bit s.scEvent (by decide)
    exact congrArg some packed.holds
  case loops =>
    have packed := (packs_bit s.shutdownReq).bit s.runSensor (by decide) |>.bit s.runButton (by decide)
      |>.bit s.runScroll (by decide)
    exact congrArg some packed.holds

end Sys2Proof.Machine
end

section
/-! PROOFS. O35, O36, O37: the samples in a ring of slots, read from a start index (`ringSamples`), say what a push does: it
appends its sample, and a full ring then merges its first two samples into one (42_ring_buffer.md R500 to R504). -/

namespace Sys2Proof.Machine

open Sys2Proof.Safety

/-! ### The samples in a run of slots -/

/-- The samples in `count` slots of a ring from index `start` on, modulo its size. -/
def ringSamples (rb : List Sample) (start count : Nat) : List Sample :=
  (List.range count).map fun k => rb.getD ((start + k) % rb.length) ⟨0, 0, 0⟩

/-- Two distances below `n` that lead from one index to the same place, modulo `n`, are equal. -/
theorem distance_unique {n i j k : Nat} (hj : j < n) (hk : k < n) (same : (i + j) % n = (i + k) % n) : j = k := by
  have place (d : Nat) (hd : d < n) : (i + d) % n = if i % n + d < n then i % n + d else i % n + d - n := by
    have below := Nat.mod_lt i (Nat.zero_lt_of_lt hd)
    rw [← Nat.mod_add_mod]
    split
    · exact Nat.mod_eq_of_lt ‹_›
    · rw [Nat.mod_eq_sub_mod (by omega), Nat.mod_eq_of_lt (by omega)]
  rw [place j hj, place k hk] at same
  split at same <;> split at same <;> omega

variable {rb : List Sample} {start count : Nat}

@[simp] theorem length_ringSamples : (ringSamples rb start count).length = count := by
  simp [ringSamples]

/-- The sample at the start, then those of the slots after it. -/
theorem ringSamples_succ (h : start < rb.length) :
    ringSamples rb start (count + 1) = rb[start] :: ringSamples rb ((start + 1) % rb.length) count := by
  simp [ringSamples, List.range_succ_eq_map, Nat.mod_eq_of_lt h, Nat.add_assoc, Nat.add_comm 1, h]

/-- A write to the slot at distance `k` from the start is not seen in slots at other distances. -/
theorem getD_set_ring_ne {j k : Nat} (x : Sample) (hj : j < rb.length) (hk : k < rb.length) (ne : j ≠ k) :
    (rb.set ((start + k) % rb.length) x).getD ((start + j) % rb.length) ⟨0, 0, 0⟩ =
      rb.getD ((start + j) % rb.length) ⟨0, 0, 0⟩ := by
  have apart : (start + k) % rb.length ≠ (start + j) % rb.length := fun same =>
    ne (distance_unique hj hk same.symm)
  simp [List.getElem?_set_ne apart]

/-- Storing into the slot after the last one appends. -/
theorem ringSamples_set_last (x : Sample) (room : count < rb.length) :
    ringSamples (rb.set ((start + count) % rb.length) x) start (count + 1) = ringSamples rb start count ++ [x] := by
  have inside : (start + count) % rb.length < rb.length := Nat.mod_lt _ (Nat.zero_lt_of_lt room)
  have before : ∀ k ∈ List.range count,
      (rb.set ((start + count) % rb.length) x).getD ((start + k) % rb.length) ⟨0, 0, 0⟩ =
        rb.getD ((start + k) % rb.length) ⟨0, 0, 0⟩ := by
    intro k hk
    have := List.mem_range.mp hk
    exact getD_set_ring_ne x (by omega) room (by omega)
  simp only [ringSamples, List.length_set, List.range_succ, List.map_append, List.map_congr_left before]
  simp [inside]

/-- Storing into the first slot replaces the first sample. -/
theorem ringSamples_set_first (x : Sample) (h : start < rb.length) (room : count < rb.length) :
    ringSamples (rb.set start x) start (count + 1) = x :: ringSamples rb ((start + 1) % rb.length) count := by
  have after : ∀ k ∈ List.range count, (rb.set start x).getD ((start + (k + 1)) % rb.length) ⟨0, 0, 0⟩ =
      rb.getD ((start + (k + 1)) % rb.length) ⟨0, 0, 0⟩ := by
    intro k hk
    have := List.mem_range.mp hk
    have apart := getD_set_ring_ne (rb := rb) (start := start) (j := k + 1) (k := 0) x (by omega) (by omega) (by omega)
    rwa [Nat.add_zero, Nat.mod_eq_of_lt h] at apart
  rw [ringSamples_succ (by simpa using h), List.getElem_set_self]
  simp only [ringSamples, List.length_set, Nat.mod_add_mod, Nat.add_assoc, Nat.add_comm 1, List.map_congr_left after]

/-- Moving the start past the first sample, which is merged into the second: the samples after these two stay. -/
theorem ringSamples_merge {next m : Nat} (first : start < rb.length) (second : next < rb.length)
    (follows : next = (start + 1) % rb.length) (room : m < rb.length) :
    ∃ rest, ringSamples rb start (m + 2) = rb[start] :: rb[next] :: rest ∧
      ∀ y, ringSamples (rb.set next y) next (m + 1) = y :: rest := by
  refine ⟨ringSamples rb ((next + 1) % rb.length) m, ?_, fun y => ringSamples_set_first y second room⟩
  rw [ringSamples_succ first, ← follows, ringSamples_succ second]

/-! ### The live samples -/

variable {s t : State}

theorem liveSamples_eq (h : RingOk s) : liveSamples s = ringSamples s.rb s.rbR (liveCount s) := by
  simp only [liveSamples, ringSamples, h.slots]

theorem length_liveSamples (h : RingOk s) : (liveSamples s).length = liveCount s := by
  rw [liveSamples_eq h, length_ringSamples]

/-- The write index stands after the live slots (R502). -/
theorem writeIndex_eq (h : RingOk s) : (s.rbR + liveCount s) % s.params.rbN = s.rbW := by
  have read := h.read
  have write := h.write
  rw [liveCount_eq write read]
  split
  · rw [Nat.add_sub_cancel' ‹_›, Nat.mod_eq_of_lt write]
  · rw [show s.rbR + (s.rbW + s.params.rbN - s.rbR) = s.rbW + s.params.rbN by omega, Nat.add_mod_right,
      Nat.mod_eq_of_lt write]

/-- Only the live count leads from the read index to the write index. -/
theorem liveCount_unique {c : Nat} (h : RingOk s) (small : c < s.params.rbN)
    (leads : (s.rbR + c) % s.params.rbN = s.rbW) : liveCount s = c :=
  distance_unique (Nat.mod_lt _ (Nat.zero_lt_of_lt small)) small ((writeIndex_eq h).trans leads.symm)

/-- A ring has at least two slots (00_scope.md R8). -/
theorem two_le_slots (h : RingOk s) : 2 ≤ s.params.rbN := by
  obtain ⟨⟨two_le, _⟩, _⟩ := wf_facts h.params
  exact two_le

theorem liveCount_lt (h : RingOk s) : liveCount s < s.params.rbN := Nat.mod_lt _ (Nat.zero_lt_of_lt h.read)

theorem nextIndex_writeIndex (h : RingOk s) : nextIndex s s.rbW = (s.rbR + (liveCount s + 1)) % s.params.rbN := by
  rw [nextIndex, ← writeIndex_eq h, Nat.mod_add_mod, Nat.add_assoc]

/-- The advanced write index meets the read index exactly when `RB_N` - 1 samples are live (R500, R503). -/
theorem nextIndex_writeIndex_eq_iff (h : RingOk s) : nextIndex s s.rbW = s.rbR ↔ liveCount s + 1 = s.params.rbN := by
  rw [nextIndex_writeIndex h]
  constructor
  · intro met
    refine Nat.le_antisymm (liveCount_lt h) (Nat.le_of_not_lt fun room => ?_)
    have met_empty : (s.rbR + (liveCount s + 1)) % s.params.rbN = (s.rbR + 0) % s.params.rbN :=
      met.trans (Nat.mod_eq_of_lt h.read).symm
    exact Nat.succ_ne_zero _ (distance_unique room (Nat.zero_lt_of_lt room) met_empty)
  · intro full
    rw [full, Nat.add_mod_right, Nat.mod_eq_of_lt h.read]

/-- The ring is empty exactly when its indices are equal (R502). -/
theorem liveCount_eq_zero_iff (h : RingOk s) : liveCount s = 0 ↔ s.rbW = s.rbR := by
  have place := writeIndex_eq h
  constructor
  · intro empty
    rw [← place, empty, Nat.add_zero, Nat.mod_eq_of_lt h.read]
  · intro same
    exact liveCount_unique h (Nat.zero_lt_of_lt h.read) (by rw [same, Nat.add_zero, Nat.mod_eq_of_lt h.read])

/-! ### Merge and push -/

theorem readIndex_lt (h : RingOk s) : s.rbR < s.rb.length := h.slots ▸ h.read

theorem writeIndex_lt (h : RingOk s) : s.rbW < s.rb.length := h.slots ▸ h.write

theorem nextIndex_lt_slots (h : RingOk s) (i : Nat) : nextIndex s i < s.rb.length :=
  h.slots ▸ nextIndex_lt i (Nat.zero_lt_of_lt h.read)

/-- The state in which a push has stored its sample but not yet moved the write index (R500). -/
def withStored (x : Sample) (s : State) : State := { s with rb := s.rb.set s.rbW x }

theorem ringOk_stored (x : Sample) (h : RingOk s) : RingOk (withStored x s) :=
  ⟨h.params, List.length_set.trans h.slots, h.write, h.read⟩

/-- The state in which the oldest sample `o` has been merged into the next-oldest, `n` (R501). -/
def mergedForward (o n : Sample) (s : State) : State :=
  { s with
    rb := s.rb.set (nextIndex s s.rbR) (mergedSample o n)
    rbR := nextIndex s s.rbR
    ovfCount := s.ovfCount + 1
    events := s.events ++ [.rbOverflow s.rbR] }

theorem mergeOldest_eq (oldest : s.rbR < s.rb.length) (next : nextIndex s s.rbR < s.rb.length) :
    mergeOldest s = .ok (mergedForward s.rb[s.rbR] s.rb[nextIndex s s.rbR] s) :=
  mergeOldest_ok oldest next

/-- A push at `RB_N` - 1 samples is the store, the merge, and the move of the write index (R500). -/
theorem pushSample_eq_merge {x : Sample} (h : RingOk s) (full : liveCount s + 1 = s.params.rbN)
    (merged : mergeOldest (withStored x s) = .ok t) : pushSample x s = .ok (setWriteIndex (nextIndex s s.rbW) t) :=
  pushSample_full x (writeIndex_lt h) ((nextIndex_writeIndex_eq_iff h).mpr full) merged

/-- The sample stored at the write index follows the live samples. -/
theorem ringSamples_stored (x : Sample) (h : RingOk s) :
    ringSamples (withStored x s).rb s.rbR (liveCount s + 1) = liveSamples s ++ [x] := by
  have last := ringSamples_set_last (start := s.rbR) x (h.slots.symm ▸ liveCount_lt h)
  rwa [h.slots, writeIndex_eq h, ← liveSamples_eq h] at last

/-- A push below `RB_N` - 1 samples appends (R500). -/
theorem push_appends (x : Sample) (h : RingOk s) (room : liveCount s + 1 ≠ s.params.rbN) :
    ∃ t, pushSample x s = .ok t ∧ liveSamples t = liveSamples s ++ [x] := by
  have pushed := pushSample_free x (writeIndex_lt h) (mt (nextIndex_writeIndex_eq_iff h).mp room)
  have ok := ringOk_pushSample h pushed
  have fits : liveCount s + 1 < s.params.rbN := Nat.lt_of_le_of_ne (liveCount_lt h) room
  refine ⟨_, pushed, ?_⟩
  rw [liveSamples_eq ok, liveCount_unique ok fits (nextIndex_writeIndex h).symm]
  exact ringSamples_stored x h

/-- A push at `RB_N` - 1 samples appends and merges the first two samples into one (R500, R501). -/
theorem push_merges (x : Sample) (h : RingOk s) (full : liveCount s + 1 = s.params.rbN) :
    ∃ t o n rest, pushSample x s = .ok t ∧ liveSamples s ++ [x] = o :: n :: rest ∧
      liveSamples t = mergedSample o n :: rest := by
  have kept := ringOk_stored x h
  have oldest : s.rbR < (withStored x s).rb.length := readIndex_lt kept
  have next : nextIndex s s.rbR < (withStored x s).rb.length := nextIndex_lt_slots kept s.rbR
  have pushed := pushSample_eq_merge h full (mergeOldest_eq oldest next)
  have ok := ringOk_pushSample h pushed
  obtain ⟨m, size⟩ : ∃ m, s.params.rbN = m + 2 := Nat.exists_eq_add_of_le' (two_le_slots h)
  have slots : (withStored x s).rb.length = m + 2 := kept.slots.trans size
  have follows : nextIndex s s.rbR = (s.rbR + 1) % (withStored x s).rb.length := by rw [kept.slots]; rfl
  obtain ⟨rest, before, after⟩ := ringSamples_merge (m := m) oldest next follows (by omega)
  have appended := ringSamples_stored x h
  rw [full, size, before] at appended
  refine ⟨_, _, _, rest, pushed, appended.symm, ?_⟩
  have leads : (nextIndex s s.rbR + (m + 1)) % s.params.rbN = nextIndex s s.rbW := by
    rw [nextIndex_writeIndex h, full, size, nextIndex, size, Nat.mod_add_mod, Nat.add_assoc, Nat.add_comm 1]
  rw [liveSamples_eq ok, liveCount_unique ok (show m + 1 < s.params.rbN by omega) leads]
  exact after _

/-- A push never stops (R500). -/
theorem push_completes (x : Sample) (h : RingOk s) : ∃ t, pushSample x s = .ok t := by
  by_cases full : liveCount s + 1 = s.params.rbN
  · obtain ⟨t, _, _, _, pushed, _⟩ := push_merges x h full
    exact ⟨t, pushed⟩
  · obtain ⟨t, pushed, _⟩ := push_appends x h full
    exact ⟨t, pushed⟩

/-- What a push does to the live samples (R500, R501). -/
theorem push_cases {x : Sample} (h : RingOk s) (pushed : pushSample x s = .ok t) :
    (liveCount s + 1 ≠ s.params.rbN ∧ liveSamples t = liveSamples s ++ [x]) ∨
    (liveCount s + 1 = s.params.rbN ∧ ∃ o n rest, liveSamples s ++ [x] = o :: n :: rest ∧
      liveSamples t = mergedSample o n :: rest) := by
  by_cases full : liveCount s + 1 = s.params.rbN
  · obtain ⟨u, o, n, rest, pushed', before, after⟩ := push_merges x h full
    cases pushed.symm.trans pushed'
    exact .inr ⟨full, o, n, rest, before, after⟩
  · obtain ⟨u, pushed', after⟩ := push_appends x h full
    cases pushed.symm.trans pushed'
    exact .inl ⟨full, after⟩

/-! ### O37: occupancy -/

/-- A push adds one live sample, unless `RB_N` - 1 are live (R503). -/
theorem liveCount_push {x : Sample} (h : RingOk s) (pushed : pushSample x s = .ok t) :
    liveCount t = min (liveCount s + 1) (s.params.rbN - 1) := by
  have less := liveCount_lt h
  rw [← length_liveSamples (ringOk_pushSample h pushed)]
  obtain ⟨room, after⟩ | ⟨full, o, n, rest, before, after⟩ := push_cases h pushed
  · rw [after, List.length_append, length_liveSamples h, List.length_singleton]
    omega
  · have length := congrArg List.length before
    simp only [List.length_append, List.length_cons, List.length_nil, length_liveSamples h] at length
    rw [after, List.length_cons]
    omega

/-- Settles O37: the live count is a remainder modulo `RB_N`, and a push leaves it above 0. -/
theorem ringOccupancy : Obligations.RingOccupancy := by
  refine ⟨fun s h => ⟨Nat.le_sub_one_of_lt (liveCount_lt h), liveCount_eq_zero_iff h⟩, fun x s t h ran => ?_⟩
  have pushed : pushSample x s = .ok t := toOutcome_eq_next.mp ran
  have count := liveCount_push h pushed
  have size := two_le_slots h
  refine ⟨mt (liveCount_eq_zero_iff (ringOk_pushSample h pushed)).mpr ?_, count⟩
  omega

/-! ### O36: displacement -/

/-- A push adds its own to the sum of any delta that a merge adds up, modulo 2^16 (R504). -/
theorem sum_push {x : Sample} (delta : Sample → BitVec 16)
    (adds : ∀ o n, delta (mergedSample o n) = delta n + delta o) (h : RingOk s) (pushed : pushSample x s = .ok t) :
    ((liveSamples t).map delta).sum = ((liveSamples s).map delta).sum + delta x := by
  have appended : ((liveSamples s ++ [x]).map delta).sum = ((liveSamples s).map delta).sum + delta x := by simp
  rw [← appended]
  obtain ⟨_, after⟩ | ⟨_, o, n, rest, before, after⟩ := push_cases h pushed
  · rw [after]
  · rw [before, after]
    simp only [List.map_cons, List.sum_cons, adds, BitVec.add_comm (delta n), BitVec.add_assoc]

theorem sumDx_push {x : Sample} (h : RingOk s) (pushed : pushSample x s = .ok t) :
    sumDx (liveSamples t) = sumDx (liveSamples s) + x.dx :=
  sum_push Sample.dx (fun _ _ => rfl) h pushed

theorem sumDy_push {x : Sample} (h : RingOk s) (pushed : pushSample x s = .ok t) :
    sumDy (liveSamples t) = sumDy (liveSamples s) + x.dy :=
  sum_push Sample.dy (fun _ _ => rfl) h pushed

theorem execAll_push {x : Sample} (rest : List Instr) (pushed : pushSample x s = .ok t) :
    execAll (.push x :: rest) s = execAll rest t := by
  have ran : exec (.push x) s = .next t := toOutcome_eq_next.mpr pushed
  simp only [execAll, ran]

/-- Settles O36, by induction on the pushed samples. -/
theorem pushesConserveDisplacement : Obligations.PushesConserveDisplacement := by
  intro xs
  induction xs with
  | nil => exact fun s h => ⟨s, rfl, h, (BitVec.add_zero _).symm, (BitVec.add_zero _).symm⟩
  | cons x xs ih =>
    intro s h
    obtain ⟨u, pushed⟩ := push_completes x h
    obtain ⟨t, ran, ok, dx, dy⟩ := ih u (ringOk_pushSample h pushed)
    refine ⟨t, (execAll_push _ pushed).trans ran, ok, ?_, ?_⟩
    · rw [dx, sumDx_push h pushed, BitVec.add_assoc]; rfl
    · rw [dy, sumDy_push h pushed, BitVec.add_assoc]; rfl

/-! ### O35: what merge and push store -/

/-- Settles O35: the merge of the state a push has stored its sample in is the merge it runs. -/
theorem pushStoresAndMerges : Obligations.PushStoresAndMerges := by
  refine ⟨fun s h => ?merge, fun x s h => ⟨fun apart => ?free, fun meet => ?full⟩, fun dx dy s h => ?pusht⟩
  case merge =>
    have oldest := readIndex_lt h
    have next := nextIndex_lt_slots h s.rbR
    exact ⟨_, _, List.getElem?_eq_getElem oldest, List.getElem?_eq_getElem next,
      toOutcome_eq_next.mpr (mergeOldest_ok oldest next)⟩
  case free => exact toOutcome_eq_next.mpr (pushSample_free x (writeIndex_lt h) apart)
  case full =>
    have kept := ringOk_stored x h
    have merged := mergeOldest_ok (readIndex_lt kept) (nextIndex_lt_slots kept s.rbR)
    exact ⟨_, toOutcome_eq_next.mpr merged, toOutcome_eq_next.mpr (pushSample_full x (writeIndex_lt h) meet merged)⟩
  case pusht =>
    obtain ⟨t, pushed⟩ := push_completes ⟨BitVec.ofInt 16 dx.toInt, BitVec.ofInt 16 dy.toInt, s.now⟩ h
    exact ⟨t, toOutcome_eq_next.mpr pushed, toOutcome_eq_next.mpr pushed⟩

end Sys2Proof.Machine
end

section
/-! PROOFS. O38: the reports of a motion sample take the remainder of each delta, clamped, one after the other
(42_ring_buffer.md R506, R507). -/

namespace Sys2Proof.Machine

open Sys2Proof.Safety

/-- What the report after `k` others carries of a delta (R506). -/
def carried (d : Int) (k : Nat) : Int := clamp (leftOver d k) (-127) 127

/-- How many reports one delta takes: ceil(|d| / 127). -/
def reportsOf (d : Int) : Nat := (d.natAbs + 126) / 127

/-- How many reports two deltas take (R506). -/
def reportsFor (rx ry : Int) : Nat := max 1 (max (reportsOf rx) (reportsOf ry))

theorem reportCount_eq (x : Sample) : reportCount x = reportsFor x.dx.toInt x.dy.toInt := rfl

theorem reportsOf_dx_le (x : Sample) : reportsOf x.dx.toInt ≤ reportCount x :=
  Nat.le_trans (Nat.le_max_left _ _) (Nat.le_max_right _ _)

theorem reportsOf_dy_le (x : Sample) : reportsOf x.dy.toInt ≤ reportCount x :=
  Nat.le_trans (Nat.le_max_right _ _) (Nat.le_max_right _ _)

/-! ### One delta -/

/-- What remains, for both signs of the delta at once. -/
theorem leftOver_eq (d : Int) (k : Nat) : leftOver d k = max (d - 127 * k) 0 + min (d + 127 * k) 0 := by
  simp only [leftOver]
  split <;> omega

theorem leftOver_zero (d : Int) : leftOver d 0 = d := by
  rw [leftOver_eq]
  omega

theorem carried_zero (d : Int) : carried d 0 = clamp d (-127) 127 := by
  rw [carried, leftOver_zero]

/-- A report leaves what the reports before it left, less what it carries. -/
theorem leftOver_succ (d : Int) (k : Nat) : leftOver d (k + 1) = leftOver d k - carried d k := by
  simp only [carried, clamp, leftOver_eq]
  omega

/-- The reports after the first are those of what the first leaves. -/
theorem carried_succ (d : Int) (k : Nat) : carried d (k + 1) = carried (d - clamp d (-127) 127) k := by
  have rest : leftOver d (k + 1) = leftOver (d - clamp d (-127) 127) k := by
    simp only [clamp, leftOver_eq]
    omega
  rw [carried, carried, rest]

theorem leftOver_eq_zero {d : Int} {k : Nat} (enough : reportsOf d ≤ k) : leftOver d k = 0 := by
  rw [reportsOf] at enough
  rw [leftOver_eq]
  omega

/-- What `k` reports carry and what they leave make up the delta. -/
theorem sum_carried (d : Int) (k : Nat) : ((List.range k).map (carried d)).sum = d - leftOver d k := by
  induction k with
  | zero => exact (Int.sub_eq_zero.mpr (leftOver_zero d).symm).symm
  | succ k ih =>
    rw [List.range_succ, List.map_append, List.sum_append, ih, leftOver_succ, List.map_singleton, List.sum_singleton]
    omega

theorem sum_carried_eq {d : Int} {k : Nat} (enough : reportsOf d ≤ k) :
    ((List.range k).map (carried d)).sum = d := by
  rw [sum_carried, leftOver_eq_zero enough, Int.sub_zero]

/-! ### Both deltas -/

theorem reportsOf_rest (d : Int) : reportsOf (d - clamp d (-127) 127) = reportsOf d - 1 := by
  simp only [reportsOf, clamp]
  omega

theorem rest_eq_zero_iff (d : Int) : d - clamp d (-127) 127 = 0 ↔ reportsOf d ≤ 1 := by
  simp only [reportsOf, clamp]
  omega

/-- One report suffices when it leaves nothing. -/
theorem reportsFor_last {rx ry : Int} (nothing : rx - clamp rx (-127) 127 = 0 ∧ ry - clamp ry (-127) 127 = 0) :
    reportsFor rx ry = 1 := by
  rw [rest_eq_zero_iff, rest_eq_zero_iff] at nothing
  obtain ⟨oneX, oneY⟩ := nothing
  exact Nat.max_eq_left (Nat.max_le.mpr ⟨oneX, oneY⟩)

/-- Otherwise the first report is followed by those of what it leaves. -/
theorem reportsFor_more {rx ry : Int} (more : ¬ (rx - clamp rx (-127) 127 = 0 ∧ ry - clamp ry (-127) 127 = 0)) :
    reportsFor rx ry = reportsFor (rx - clamp rx (-127) 127) (ry - clamp ry (-127) 127) + 1 := by
  rw [rest_eq_zero_iff, rest_eq_zero_iff] at more
  simp only [reportsFor, reportsOf_rest]
  omega

/-- A report that leaves something takes from |rx| + |ry|. -/
theorem natAbs_leftOver_lt {rx ry : Int} (more : ¬ (rx - clamp rx (-127) 127 = 0 ∧ ry - clamp ry (-127) 127 = 0)) :
    (rx - clamp rx (-127) 127).natAbs + (ry - clamp ry (-127) 127).natAbs < rx.natAbs + ry.natAbs := by
  simp only [clamp] at more ⊢
  omega

/-- One report, and those of what it leaves (R506). -/
theorem motionReports_succ (fuel : Nat) (rx ry : Int) :
    motionReports (fuel + 1) rx ry = motionReport (clamp rx (-127) 127) (clamp ry (-127) 127) ::
      if rx - clamp rx (-127) 127 = 0 ∧ ry - clamp ry (-127) 127 = 0 then []
      else motionReports fuel (rx - clamp rx (-127) 127) (ry - clamp ry (-127) 127) := rfl

/-- The reports of two deltas, the k-th carrying what is left of each, clamped (R506). -/
theorem motionReports_eq (fuel : Nat) (rx ry : Int) (enough : rx.natAbs + ry.natAbs < fuel) :
    motionReports fuel rx ry =
      (List.range (reportsFor rx ry)).map fun k => motionReport (carried rx k) (carried ry k) := by
  induction fuel generalizing rx ry with
  | zero => omega
  | succ fuel ih =>
    rw [motionReports_succ]
    split
    case isTrue nothing =>
      simp [reportsFor_last nothing, carried_zero]
    case isFalse more =>
      have fewer := natAbs_leftOver_lt more
      rw [reportsFor_more more, List.range_succ_eq_map, List.map_cons, List.map_map, carried_zero, carried_zero,
        ih _ _ (by omega)]
      simp [carried_succ]

theorem sampleReports_eq (x : Sample) :
    sampleReports x = (List.range (reportCount x)).map fun k =>
      motionReport (carried x.dx.toInt k) (carried x.dy.toInt k) := by
  rw [reportCount_eq]
  exact motionReports_eq _ _ _ (Nat.lt_succ_self _)

theorem exec_emitMotion_exact (x : Sample) (s : State) (alone : s.interludes = []) :
    exec (.emitMotion x) s = .next { s with reports := s.reports ++ sampleReports x } :=
  congrArg Host.Outcome.next (emitAll_exact (sampleReports x) s alone)

/-- Settles O38: the number of reports is enough for each delta, so nothing of it is left. -/
theorem emitMotionSplits : Obligations.EmitMotionSplits := by
  intro x s alone
  refine ⟨?_, sum_carried_eq (reportsOf_dx_le x), sum_carried_eq (reportsOf_dy_le x)⟩
  rw [exec_emitMotion_exact x s alone, sampleReports_eq]
  rfl

end Sys2Proof.Machine
end

section
/-! PROOFS. O23, O28, O29: the latch of a main button. What its handler commits, case by case; what each step of `LatchPoll`
does with the flag; and a handler that commits at a step boundary of the poll (43_button_latch.md R550, R551, R555;
70_reset_and_hazards.md R916). -/

namespace Sys2Proof.Machine

variable {b : MainButton} {p : Pin} {s : State}

/-- A later write of a button's value hides an earlier one. -/
@[simp] theorem perMainSet_set {α : Type} (v : PerMain α) (b : MainButton) (x y : α) :
    perMainSet (perMainSet v b x) b y = perMainSet v b y := by
  cases b <;> rfl

/-! ### The handler -/

/-- What the NO pin of a button says (R551). -/
def noContact (b : MainButton) (s : State) : Contact :=
  if pinLevel s (noPin b) = perMainGet s.params.mainPressLevel b then .down else .up

/-- A handler commits a contact: the button takes it, and its flag is SET (R550). -/
def commitContact (b : MainButton) (c : Contact) (s : State) : State :=
  { s with mlFlag := perMainSet s.mlFlag b .set, mlState := perMainSet s.mlState b c }

theorem mainContact_agree {press no nc : Level} (agree : no = nc) : mainContact press no nc = none := if_pos agree

theorem mainContact_disagree {press no nc : Level} (differ : no ≠ nc) :
    mainContact press no nc = some (if no = press then .down else .up) := if_neg differ

theorem mainEdge_agree (agree : pinLevel s (noPin b) = pinLevel s (ncPin b)) :
    mainEdge b s = raiseEvent (.spuriousEdge b) s := by
  rw [mainEdge, mainContact_agree agree]

theorem mainEdge_disagree (differ : pinLevel s (noPin b) ≠ pinLevel s (ncPin b)) :
    mainEdge b s =
      if noContact b s = perMainGet s.mlState b then s else commitContact b (noContact b s) s := by
  rw [mainEdge, mainContact_disagree differ]
  exact ite_not ..

/-- Settles O23: the pins agree, or the NO pin decides. -/
theorem mainEdgeCommits : Obligations.MainEdgeCommits := by
  intro b s
  refine congrArg Host.Outcome.next ?_
  split
  case isTrue agree => exact mainEdge_agree agree
  case isFalse differ => exact mainEdge_disagree differ

/-! ### The steps of the poll -/

/-- A button's flag takes a value. -/
def setFlag (b : MainButton) (f : Handshake) (s : State) : State := { s with mlFlag := perMainSet s.mlFlag b f }

theorem setFlag_flag (b : MainButton) (f : Handshake) (s : State) : perMainGet (setFlag b f s).mlFlag b = f :=
  perMainGet_set_same ..

theorem setFlag_setFlag (b : MainButton) (f g : Handshake) (s : State) :
    setFlag b g (setFlag b f s) = setFlag b g s := by
  simp only [setFlag, perMainSet_set]

theorem latchTake_set (isSet : perMainGet s.mlFlag b = .set) : latchTake b s = (true, setFlag b .read s) :=
  if_pos isSet

theorem latchTake_other (notSet : perMainGet s.mlFlag b ≠ .set) : latchTake b s = (false, s) := if_neg notSet

theorem latchRelease_read (isRead : perMainGet s.mlFlag b = .read) : latchRelease b s = setFlag b .clear s :=
  if_pos isRead

/-- The compare-and-swap leaves a SET flag alone (R916). -/
theorem latchRelease_set (isSet : perMainGet s.mlFlag b = .set) : latchRelease b s = s :=
  if_neg (by rw [isSet]; decide)

theorem latchPoll_set (isSet : perMainGet s.mlFlag b = .set) :
    latchPoll b s = latchFinish b (setFlag b .read s) := by
  rw [latchPoll, latchTake_set isSet]
  rfl

theorem latchPoll_other (notSet : perMainGet s.mlFlag b ≠ .set) : latchPoll b s = s := by
  rw [latchPoll, latchTake_other notSet]
  rfl

theorem latchFinish_alone (alone : s.interludes = []) (isRead : perMainGet s.mlFlag b = .read) :
    latchFinish b s = setFlag b .clear (reportButtons s) := by
  rw [latchFinish, yield_nil alone, yield_nil (s := reportButtons s) alone,
    latchRelease_read (s := reportButtons s) isRead]

theorem latchPoll_alone (alone : s.interludes = []) (isSet : perMainGet s.mlFlag b = .set) :
    latchPoll b s = setFlag b .clear (reportButtons s) :=
  calc latchPoll b s
    _ = latchFinish b (setFlag b .read s) := latchPoll_set isSet
    _ = setFlag b .clear (reportButtons (setFlag b .read s)) := latchFinish_alone alone (setFlag_flag b .read s)
    _ = setFlag b .clear (reportButtons s) := setFlag_setFlag b .read .clear (reportButtons s)

/-- Settles O28: SET becomes READ and, with nobody in between, CLEAR. -/
theorem latchPollReports : Obligations.LatchPollReports := by
  intro b s alone
  refine congrArg Host.Outcome.next ?_
  split
  case isTrue isSet => exact latchPoll_alone alone isSet
  case isFalse notSet => exact latchPoll_other notSet

/-! ### A handler inside the poll -/

/-- The other contact. -/
def otherContact (c : Contact) : Contact := if c = .up then .down else .up

theorem otherContact_ne (c : Contact) : otherContact c ≠ c := by
  cases c <;> decide

/-- The handler of `p`, one of the button's pins, is due and will commit a new state. -/
structure CommitDue (b : MainButton) (p : Pin) (s : State) : Prop where
  pin : p = noPin b ∨ p = ncPin b
  latched : pending s p = true
  differ : pinLevel s (noPin b) ≠ pinLevel s (ncPin b)
  moved : pinLevel s (noPin b) = perMainGet s.params.mainPressLevel b ↔ perMainGet s.mlState b = .up

/-- What that handler leaves behind. -/
def afterCommit (b : MainButton) (p : Pin) (s : State) : State :=
  commitContact b (otherContact (perMainGet s.mlState b)) (setPending p false s)

theorem handler_mainPin (h : p = noPin b ∨ p = ncPin b) : handler p = mainEdge b := by
  rcases h with rfl | rfl <;> cases b <;> rfl

theorem noContact_moved
    (moved : pinLevel s (noPin b) = perMainGet s.params.mainPressLevel b ↔ perMainGet s.mlState b = .up) :
    noContact b s = otherContact (perMainGet s.mlState b) := by
  simp only [noContact, otherContact, moved]

theorem handlerEntry_commits (h : CommitDue b p s) : handlerEntry p s = afterCommit b p s := by
  have seen : noContact b (setPending p false s) = otherContact (perMainGet s.mlState b) := noContact_moved h.moved
  rw [handlerEntry, handlerReturn, handler_mainPin h.pin, mainEdge_disagree (s := setPending p false s) h.differ, seen]
  exact if_neg (otherContact_ne _)

/-- The interludes still to come. -/
def setInterludes (l : List (List Act)) (s : State) : State := { s with interludes := l }

variable {who : Agent} {rest : List (List Act)}

/-- A boundary whose interlude has no step only uses it up. -/
theorem yield_idle (placed : s.interludes = [] :: rest) : yield who s = setInterludes rest s := by
  rw [yield, placed]
  rfl

/-- A boundary where a pending handler runs. -/
theorem yield_isr (placed : s.interludes = [.isr p] :: rest) (latched : pending s p = true) :
    yield who s = handlerEntry p (setInterludes rest s) := by
  rw [yield, placed]
  exact if_pos latched

theorem yield_commit (placed : s.interludes = [.isr p] :: rest) (h : CommitDue b p s) :
    yield who s = afterCommit b p (setInterludes rest s) := by
  have due : CommitDue b p (setInterludes rest s) := { h with }
  rw [yield_isr placed h.latched, handlerEntry_commits due]

theorem afterCommit_flag (b : MainButton) (p : Pin) (s : State) : perMainGet (afterCommit b p s).mlFlag b = .set :=
  perMainGet_set_same ..

/-- What the poll did to the flag before the commit no longer shows. -/
theorem afterCommit_setFlag (b : MainButton) (p : Pin) (f : Handshake) (s : State) :
    afterCommit b p (setFlag b f s) = afterCommit b p s := by
  simp only [afterCommit, commitContact, setPending, setFlag, perMainSet_set]

/-- Between steps 1 and 2, the report shows the new state. -/
theorem latchFinish_commit_first (placed : s.interludes = [[.isr p]]) (h : CommitDue b p s) :
    latchFinish b s = reportButtons (afterCommit b p (setInterludes [] s)) := by
  have kept := afterCommit_flag b p (setInterludes [] s)
  rw [latchFinish, yield_commit placed h, yield_nil rfl]
  exact latchRelease_set kept

/-- Between steps 2 and 3, the report shows the state before. -/
theorem latchFinish_commit_second (placed : s.interludes = [[], [.isr p]]) (h : CommitDue b p s) :
    latchFinish b s = afterCommit b p (setInterludes [] (reportButtons s)) := by
  have due : CommitDue b p (reportButtons (setInterludes [[.isr p]] s)) := { h with }
  rw [latchFinish, yield_idle placed, yield_commit rfl due]
  exact latchRelease_set (afterCommit_flag b p _)

theorem latchPoll_commit_first (isSet : perMainGet s.mlFlag b = .set) (placed : s.interludes = [[.isr p]])
    (h : CommitDue b p s) : latchPoll b s = reportButtons (afterCommit b p (setInterludes [] s)) :=
  calc latchPoll b s
    _ = latchFinish b (setFlag b .read s) := latchPoll_set isSet
    _ = reportButtons (afterCommit b p (setInterludes [] (setFlag b .read s))) :=
      latchFinish_commit_first placed { h with }
    _ = reportButtons (afterCommit b p (setInterludes [] s)) :=
      congrArg reportButtons (afterCommit_setFlag b p .read (setInterludes [] s))

theorem latchPoll_commit_second (isSet : perMainGet s.mlFlag b = .set) (placed : s.interludes = [[], [.isr p]])
    (h : CommitDue b p s) : latchPoll b s = afterCommit b p (setInterludes [] (reportButtons s)) :=
  calc latchPoll b s
    _ = latchFinish b (setFlag b .read s) := latchPoll_set isSet
    _ = afterCommit b p (setInterludes [] (reportButtons (setFlag b .read s))) :=
      latchFinish_commit_second placed { h with }
    _ = afterCommit b p (setInterludes [] (reportButtons s)) :=
      afterCommit_setFlag b p .read (setInterludes [] (reportButtons s))

/-- Settles O29: in both windows the handler leaves the flag SET, so step 3 does not clear it, and the next poll, with
nobody in between, finds it SET. -/
theorem latchPollKeepsRetrigger : Obligations.LatchPollKeepsRetrigger := by
  intro b p s pin isSet latched differ moved new committed report before
  have due : CommitDue b p s := ⟨pin, latched, differ, moved⟩
  have committedSet : perMainGet committed.mlFlag b = .set := afterCommit_flag b p (setInterludes [] s)
  refine ⟨fun placed => congrArg Host.Outcome.next (latchPoll_commit_first isSet placed due),
    fun placed => congrArg Host.Outcome.next (latchPoll_commit_second isSet placed due), fun t reached => ?next⟩
  have nextPoll : latchPoll b t = setFlag b .clear (reportButtons t) := by
    rcases reached with rfl | rfl <;> exact latchPoll_alone rfl committedSet
  exact congrArg Host.Outcome.next nextPoll

end Sys2Proof.Machine
end

section
/-! PROOFS. O24, O26, O30: the eager debouncer of an auxiliary button. What its handler does, edge by edge; what one sample
of a pending release does and what a run of samples that all show it released does; and its poll with nobody in between
(44_eager_debounce.md R600, R605, R610). -/

namespace Sys2Proof.Machine

open Sys2Proof.Safety

variable {a : AuxButton} {s t : State}

/-- A later write of a button's value hides an earlier one. -/
@[simp] theorem perAuxSet_set {α : Type} (v : PerAux α) (a : AuxButton) (x y : α) :
    perAuxSet (perAuxSet v a x) a y = perAuxSet v a y := by
  cases a <;> rfl

/-- A button owes a number of samples before its release is accepted. -/
def setConfirm (a : AuxButton) (n : Nat) (s : State) : State := { s with axConfirm := perAuxSet s.axConfirm a n }

theorem setConfirm_confirm (a : AuxButton) (n : Nat) (s : State) : perAuxGet (setConfirm a n s).axConfirm a = n :=
  perAuxGet_set_same ..

theorem setConfirm_setConfirm (a : AuxButton) (m n : Nat) (s : State) :
    setConfirm a n (setConfirm a m s) = setConfirm a n s := by
  simp only [setConfirm, perAuxSet_set]

/-- Writing back the number of samples owed changes nothing. -/
theorem setConfirm_self {n : Nat} (owed : perAuxGet s.axConfirm a = n) : setConfirm a n s = s := by
  rw [setConfirm, ← owed, perAuxSet_get]

/-! ### The handler -/

/-- The press an edge reports at once: DOWN from `NOW` on, with an event for the poll (R600). -/
def acceptPress (a : AuxButton) (s : State) : State :=
  { s with
    axState := perAuxSet s.axState a .down
    axEvent := perAuxSet s.axEvent a true
    axHoldTs := perAuxSet s.axHoldTs a s.now }

theorem auxEdge_up (up : perAuxGet s.axState a = .up) : auxEdge a s = acceptPress a s := if_pos up

/-- While DOWN with nothing pending, a release confirmation begins. -/
theorem auxEdge_down (down : perAuxGet s.axState a ≠ .up) (idle : perAuxGet s.axConfirm a = 0) :
    auxEdge a s = setConfirm a 10 s :=
  (if_neg down).trans (if_pos idle)

theorem auxEdge_pending (down : perAuxGet s.axState a ≠ .up) (owed : perAuxGet s.axConfirm a ≠ 0) : auxEdge a s = s :=
  (if_neg down).trans (if_neg owed)

/-- Settles O24: the button is UP, DOWN with nothing pending, or DOWN with a release pending. -/
theorem auxEdgeAcceptsEagerly : Obligations.AuxEdgeAcceptsEagerly := by
  intro a s
  refine congrArg Host.Outcome.next ?_
  split
  case isTrue up => exact auxEdge_up up
  case isFalse down =>
    split
    case isTrue idle => exact auxEdge_down down idle
    case isFalse owed => exact auxEdge_pending down owed

/-! ### One sample -/

/-- What a sample of the button sees: its pin at the press level (R605). -/
abbrev AuxPressed (a : AuxButton) (s : State) : Prop := pinLevel s (auxPin a) = perAuxGet s.params.auxPressLevel a

/-- The release is accepted: nothing is owed, the button is UP and has an event for the poll (R605). -/
def acceptRelease (a : AuxButton) (s : State) : State :=
  { s with
    axConfirm := perAuxSet s.axConfirm a 0
    axState := perAuxSet s.axState a .up
    axEvent := perAuxSet s.axEvent a true }

/-- A release that owes `n` more samples; one that owes none is accepted. -/
def releaseOwing (a : AuxButton) (n : Nat) (s : State) : State :=
  if n = 0 then acceptRelease a s else setConfirm a n s

theorem releaseOwing_zero : releaseOwing a 0 s = acceptRelease a s := rfl

theorem releaseOwing_pos {n : Nat} (pos : n ≠ 0) : releaseOwing a n s = setConfirm a n s := if_neg pos

/-- The samples owed before no longer show. -/
theorem releaseOwing_setConfirm (a : AuxButton) (m n : Nat) (s : State) :
    releaseOwing a n (setConfirm a m s) = releaseOwing a n s := by
  simp only [releaseOwing, acceptRelease, setConfirm, perAuxSet_set]

theorem auxConfirm_idle (idle : perAuxGet s.axConfirm a = 0) : auxConfirm a s = s := if_pos idle

theorem auxConfirm_pressed (owed : perAuxGet s.axConfirm a ≠ 0) (pressed : AuxPressed a s) :
    auxConfirm a s = raiseEvent (.auxBounce a) (setConfirm a 0 s) :=
  (if_neg owed).trans (if_pos pressed)

/-- A sample that sees the button released pays one of those owed. -/
theorem auxConfirm_released {n : Nat} (owed : perAuxGet s.axConfirm a = n + 1) (released : ¬ AuxPressed a s) :
    auxConfirm a s = releaseOwing a n s := by
  have pending : perAuxGet s.axConfirm a ≠ 0 := by omega
  refine (if_neg pending).trans ((if_neg released).trans ?_)
  rw [owed, Nat.add_sub_cancel]
  cases n <;> rfl

/-- One sample, whatever is owed and seen. -/
theorem auxConfirm_eq (a : AuxButton) (s : State) :
    auxConfirm a s =
      if perAuxGet s.axConfirm a = 0 then s
      else if AuxPressed a s then raiseEvent (.auxBounce a) (setConfirm a 0 s)
      else if perAuxGet s.axConfirm a = 1 then acceptRelease a s
      else setConfirm a (perAuxGet s.axConfirm a - 1) s := by
  split
  case isTrue idle => exact auxConfirm_idle idle
  case isFalse owed =>
    split
    case isTrue pressed => exact auxConfirm_pressed owed pressed
    case isFalse released =>
      split
      case isTrue last => exact auxConfirm_released last released
      case isFalse notLast =>
        have more : perAuxGet s.axConfirm a - 1 ≠ 0 := by omega
        exact (auxConfirm_released (by omega) released).trans (releaseOwing_pos more)

/-! ### A run of samples -/

theorem execAll_cons {i : Instr} (rest : List Instr) (ran : exec i s = .next t) :
    execAll (i :: rest) s = execAll rest t := by
  simp only [execAll, ran]

/-- Samples that all see the button released pay one each, and with the last one owed the release is accepted. -/
theorem execAll_auxConfirm (k n : Nat) (pending : n + k ≠ 0) (owed : perAuxGet s.axConfirm a = n + k)
    (released : ¬ AuxPressed a s) :
    execAll (List.replicate k (.auxConfirm a)) s = .next (releaseOwing a n s) := by
  induction k generalizing s with
  | zero =>
    have unchanged : releaseOwing a n s = s := (releaseOwing_pos pending).trans (setConfirm_self owed)
    rw [unchanged]
    rfl
  | succ k ih =>
    have sampled : exec (.auxConfirm a) s = .next (releaseOwing a (n + k) s) :=
      congrArg Host.Outcome.next (auxConfirm_released owed released)
    rw [List.replicate_succ, execAll_cons _ sampled]
    by_cases paid : n + k = 0
    · obtain ⟨rfl, rfl⟩ := Nat.add_eq_zero_iff.mp paid
      rfl
    · rw [releaseOwing_pos paid, ih paid (setConfirm_confirm a (n + k) s) released, releaseOwing_setConfirm]

/-- Settles O26: one sample by cases, and of ten owed `k` samples leave `10 - k`. -/
theorem auxConfirmTakesTenSamples : Obligations.AuxConfirmTakesTenSamples := by
  refine ⟨fun a s => congrArg Host.Outcome.next ?sample, fun a s k _ owed atMost released => ?run⟩
  case sample => exact auxConfirm_eq a s
  case run =>
    have ten : 10 - k + k = 10 := Nat.sub_add_cancel atMost
    rw [execAll_auxConfirm k (10 - k) (by omega) (owed.trans ten.symm) released]
    refine congrArg Host.Outcome.next ?_
    split
    case isTrue all => rw [all]; exact releaseOwing_zero
    case isFalse notAll => exact releaseOwing_pos (by omega)

/-! ### The poll -/

/-- A button's event flag is cleared. -/
def clearEvent (a : AuxButton) (s : State) : State := { s with axEvent := perAuxSet s.axEvent a false }

/-- With an event and nobody in between, all five buttons are reported. -/
theorem auxPoll_event (alone : s.interludes = []) (event : perAuxGet s.axEvent a = true) :
    auxPoll a s = reportButtons (clearEvent a s) := by
  have taken : auxPoll a s = reportButtons (yield .button (clearEvent a s)) := if_pos event
  rw [taken, yield_nil (s := clearEvent a s) alone]

theorem auxPoll_noEvent (noEvent : perAuxGet s.axEvent a ≠ true) : auxPoll a s = clearEvent a s := if_neg noEvent

/-- Settles O30: the event decides whether a report follows its clearing. -/
theorem auxPollReports : Obligations.AuxPollReports := by
  intro a s alone
  refine congrArg Host.Outcome.next ?_
  split
  case isTrue event => exact auxPoll_event alone event
  case isFalse noEvent => exact auxPoll_noEvent noEvent

end Sys2Proof.Machine
end

section
/-! PROOFS. O25, O32, O33: the scroll decoder. What its two handlers record; what `SpeedAdjust` does with and without an
event, and a run of idle cycles; and its poll with nobody in between (45_scroll_decoder.md R650, R651, R655, R660, R661). -/

namespace Sys2Proof.Machine

open Sys2Proof.Safety

variable {s : State}

/-! ### The handlers -/

/-- The level of B gives the direction of a transition on A (R650). -/
theorem scrollEdgeA_eq (s : State) :
    scrollEdgeA s = scrollEdge (if s.pins.scrB = true then .up else .down) s := rfl

/-- The level of A gives the direction of a transition on B (R651). -/
theorem scrollEdgeB_eq (s : State) :
    scrollEdgeB s = scrollEdge (if s.pins.scrA = true then .down else .up) s := rfl

/-- Settles O25: each handler is `scrollEdge` with the direction that the level of the other pin gives. -/
theorem scrollEdgesInferDirection : Obligations.ScrollEdgesInferDirection :=
  ⟨fun s => congrArg Host.Outcome.next (scrollEdgeA_eq s), fun s => congrArg Host.Outcome.next (scrollEdgeB_eq s)⟩

/-! ### One cycle -/

/-- An event: one faster, up to `SPEED_MAX`, and the idle count starts again (R655). -/
def speedUp (s : State) : State := { s with scStopped := 0, scSpeed := min (s.scSpeed + 1) s.params.speedMax }

/-- The pause is over: one slower, and the idle count starts again (R655). -/
def slowDown (s : State) : State := { s with scSpeed := s.scSpeed - 1, scStopped := 0 }

/-- The idle count takes a value. -/
def setStopped (n : Nat) (s : State) : State := { s with scStopped := n }

/-- Above the floor, the idle count has come to `n`: past `PAUSE` the wheel slows down (R655). -/
def idledTo (n : Nat) (s : State) : State :=
  if s.params.pause < n then slowDown s else setStopped n s

theorem idledTo_past {n : Nat} (past : s.params.pause < n) : idledTo n s = slowDown s := if_pos past

theorem idledTo_within {n : Nat} (within : n ≤ s.params.pause) : idledTo n s = setStopped n s :=
  if_neg (Nat.not_lt.mpr within)

/-- An earlier idle count no longer shows. -/
theorem idledTo_setStopped (m n : Nat) (s : State) : idledTo n (setStopped m s) = idledTo n s := rfl

theorem speedAdjust_event : speedAdjust true s = speedUp s := rfl

theorem speedAdjust_idle_above (above : 1 < s.scSpeed) : speedAdjust false s = idledTo (s.scStopped + 1) s := by
  have counts : adjustedSpeed s.params.speedMax s.params.pause false s.scSpeed s.scStopped =
      if s.params.pause < s.scStopped + 1 then (s.scSpeed - 1, 0) else (s.scSpeed, s.scStopped + 1) := if_pos above
  rw [speedAdjust, counts, idledTo]
  split <;> rfl

theorem speedAdjust_idle_floor (floor : ¬ 1 < s.scSpeed) : speedAdjust false s = s := by
  have rests : adjustedSpeed s.params.speedMax s.params.pause false s.scSpeed s.scStopped = (s.scSpeed, s.scStopped) :=
    if_neg floor
  rw [speedAdjust, rests]

/-- One cycle, with an event, above the floor or at it. -/
theorem speedAdjust_eq (ev : Bool) (s : State) :
    speedAdjust ev s =
      if ev = true then speedUp s else if 1 < s.scSpeed then idledTo (s.scStopped + 1) s else s := by
  cases ev with
  | true => exact speedAdjust_event
  | false =>
    refine Eq.trans ?_ (if_neg Bool.false_ne_true).symm
    split
    case isTrue above => exact speedAdjust_idle_above above
    case isFalse floor => exact speedAdjust_idle_floor floor

theorem exec_speedAdjust (ev : Bool) (s : State) : exec (.speedAdjust ev) s = .next (speedAdjust ev s) := rfl

/-! ### A run of idle cycles -/

/-- Above the floor each cycle adds one to the idle count, up to the one that takes it past `PAUSE`. -/
theorem execAll_idle_above (k : Nat) (above : 1 < s.scSpeed) (within : s.scStopped ≤ s.params.pause)
    (atMost : s.scStopped + k ≤ s.params.pause + 1) :
    execAll (List.replicate k (.speedAdjust false)) s = .next (idledTo (s.scStopped + k) s) := by
  induction k generalizing s with
  | zero =>
    have unchanged : idledTo (s.scStopped + 0) s = s := idledTo_within within
    rw [unchanged]
    rfl
  | succ k ih =>
    have cycle : exec (.speedAdjust false) s = .next (idledTo (s.scStopped + 1) s) :=
      congrArg Host.Outcome.next (speedAdjust_idle_above above)
    rw [List.replicate_succ, execAll_cons _ cycle]
    by_cases more : s.scStopped + 1 ≤ s.params.pause
    case pos =>
      have rest : (setStopped (s.scStopped + 1) s).scStopped + k = s.scStopped + (k + 1) := Nat.succ_add_eq_add_succ ..
      rw [idledTo_within more, ih (s := setStopped (s.scStopped + 1) s) above more (Nat.le_trans (Nat.le_of_eq rest) atMost), rest,
        idledTo_setStopped]
    case neg =>
      have last : k = 0 := by omega
      rw [last]
      rfl

/-- An instruction that changes nothing can run any number of times. -/
theorem execAll_replicate_fixed {i : Instr} (k : Nat) (fixed : exec i s = .next s) :
    execAll (List.replicate k i) s = .next s := by
  induction k with
  | zero => rfl
  | succ k ih => rw [List.replicate_succ, execAll_cons _ fixed, ih]

/-! ### The range of the speed -/

theorem speedUp_speed (high : s.scSpeed ≤ s.params.speedMax) :
    (speedUp s).scSpeed = if s.scSpeed = s.params.speedMax then s.scSpeed else s.scSpeed + 1 := by
  change min (s.scSpeed + 1) s.params.speedMax = _
  split <;> omega

theorem idledTo_speed (n : Nat) (s : State) :
    (idledTo n s).scSpeed = if s.params.pause < n then s.scSpeed - 1 else s.scSpeed := by
  rw [idledTo]
  split <;> rfl

/-- An idle cycle keeps the speed, or above the floor takes one off it. -/
theorem speedAdjust_idle_speed (s : State) :
    (speedAdjust false s).scSpeed = s.scSpeed ∨
      1 < s.scSpeed ∧ (speedAdjust false s).scSpeed = s.scSpeed - 1 := by
  by_cases above : 1 < s.scSpeed
  case pos =>
    rw [speedAdjust_idle_above above, idledTo_speed]
    split
    case isTrue => exact .inr ⟨above, rfl⟩
    case isFalse => exact .inl rfl
  case neg => rw [speedAdjust_idle_floor above]; exact .inl rfl

/-- Whatever the idle count, the speed stays in `1..SPEED_MAX` (R661). -/
theorem speedAdjust_speed_inRange (ev : Bool) (low : 1 ≤ s.scSpeed) (high : s.scSpeed ≤ s.params.speedMax) :
    1 ≤ (speedAdjust ev s).scSpeed ∧ (speedAdjust ev s).scSpeed ≤ s.params.speedMax := by
  cases ev with
  | true =>
    rw [speedAdjust_event, speedUp_speed high]
    split <;> omega
  | false =>
    rcases speedAdjust_idle_speed s with kept | ⟨above, fell⟩ <;> omega

/-- Settles O32: one cycle by cases; of the `PAUSE` + 1 idle cycles above the floor only the last slows the wheel down; at
the floor none does; and the speed keeps its range. -/
theorem speedAdjustRampsAndDecays : Obligations.SpeedAdjustRampsAndDecays := by
  refine ⟨fun ev s => congrArg Host.Outcome.next (speedAdjust_eq ev s), fun s k fresh above atMost => ?decay,
    fun s k floor => ?floor, fun ev s t low high ran => ?range⟩
  case decay =>
    rw [execAll_idle_above k above (by omega) (by omega), fresh, Nat.zero_add]
    refine congrArg Host.Outcome.next ?_
    split
    case isTrue all => exact idledTo_past (by omega)
    case isFalse notAll => exact idledTo_within (by omega)
  case floor =>
    have rests : speedAdjust false s = s := speedAdjust_idle_floor (by omega)
    exact execAll_replicate_fixed k (congrArg Host.Outcome.next rests)
  case range =>
    obtain rfl : speedAdjust ev s = t := Host.Outcome.next.inj ran
    obtain ⟨low', high'⟩ := speedAdjust_speed_inRange ev low high
    refine ⟨low', high', fun event => ?_⟩
    rw [event, speedAdjust_event]
    exact speedUp_speed high

/-! ### The poll -/

/-- The event is taken. -/
def clearScroll (s : State) : State := { s with scEvent := false }

/-- With nobody in between, the adjusted speed is reported when an event was taken. -/
theorem scrollPoll_alone (alone : s.interludes = []) :
    scrollPoll s =
      if s.scEvent = true then reportWheel s.scDir (speedAdjust s.scEvent (clearScroll s))
      else speedAdjust s.scEvent (clearScroll s) := by
  have taken : scrollPoll s = scrollFinish s.scEvent s.scDir (clearScroll s) := rfl
  rw [taken, scrollFinish, yield_nil (s := clearScroll s) alone,
    yield_nil (s := speedAdjust s.scEvent (clearScroll s)) alone]

/-- Settles O33: the event decides whether a report follows the adjustment. -/
theorem scrollPollReportsWheel : Obligations.ScrollPollReportsWheel := by
  intro s alone
  refine ⟨speedAdjust s.scEvent (clearScroll s), exec_speedAdjust _ _, congrArg Host.Outcome.next ?_⟩
  rw [scrollPoll_alone alone]
  by_cases event : s.scEvent = true
  case pos => rw [if_pos event, if_pos event]; rfl
  case neg => rw [if_neg event, if_neg event]; rfl

end Sys2Proof.Machine
end

section
/-! PROOFS. What the poll-loop proofs share: a step of another agent that does not look at the program, run as an item any
number of times (`runItems_replicate_act`); and the test each loop makes at its sleep boundary (60_exceptions.md R840;
46_poll_loop.md R730). -/

namespace Sys2Proof.Machine

open Sys2Proof.Safety

/-! ### Items of the other agents -/

/-- The program and how far it has run take values. -/
def onAgenda (agenda : List Item) (pos : Nat) (ended : Bool) (s : State) : State :=
  { s with agenda := agenda, pos := pos, ended := ended }

/-- An operation that neither reads nor writes the program. -/
def AgendaBlind (f : State → State) : Prop :=
  ∀ agenda pos ended s, f (onAgenda agenda pos ended s) = onAgenda agenda pos ended (f s)

/-- An operation run a number of times, one after the other. -/
def times (f : State → State) : Nat → State → State
  | 0, s => s
  | n + 1, s => times f n (f s)

theorem times_one (f : State → State) (s : State) : times f 1 s = f s := rfl

theorem times_succ (f : State → State) (n : Nat) (s : State) : times f (n + 1) s = times f n (f s) := rfl

theorem agendaBlind_times {f : State → State} (blind : AgendaBlind f) (n : Nat) : AgendaBlind (times f n) := by
  intro agenda pos ended s
  induction n generalizing s with
  | zero => rfl
  | succ n ih => rw [times_succ, blind, ih, times_succ]

theorem AgendaBlind.pos {f : State → State} (blind : AgendaBlind f) (s : State) : (f s).pos = s.pos := by
  have same : f s = onAgenda s.agenda s.pos s.ended (f s) := blind s.agenda s.pos s.ended s
  rw [same]
  rfl

section
variable {a : Act} (blind : AgendaBlind (actStep .environment a))
include blind

theorem step_act (rest : List Item) (pos : Nat) (s : State) :
    step (onAgenda (.act a :: rest) pos false s) = .next (onAgenda rest (pos + 1) false (actStep .environment a s)) := by
  show Host.Outcome.next (finishItem (actStep .environment a (onAgenda (.act a :: rest) pos false s))) = _
  rw [blind]
  rfl

theorem run_replicate_act (n pos : Nat) (s : State) :
    Sys2Proof.core.run n (onAgenda (List.replicate n (.act a)) pos false s) =
      .next (onAgenda [] (pos + n) false (times (actStep .environment a) n s)) := by
  induction n generalizing pos s with
  | zero => rfl
  | succ n ih =>
    have stepped : Sys2Proof.core.step (onAgenda (List.replicate (n + 1) (.act a)) pos false s) =
        .next (onAgenda (List.replicate n (.act a)) (pos + 1) false (actStep .environment a s)) :=
      step_act blind (List.replicate n (.act a)) pos s
    have rest := ih (pos + 1) (actStep .environment a s)
    rw [Nat.add_right_comm, Nat.add_assoc] at rest
    rw [times_succ, ← rest]
    simp only [Host.Core.run, stepped]

/-- The same step of another agent, item after item. -/
theorem runItems_replicate_act (n : Nat) (s : State) :
    runItems (List.replicate n (.act a)) s = .next (ranItems n (times (actStep .environment a) n s)) := by
  have ran := run_replicate_act blind n s.pos s
  have kept := (agendaBlind_times blind n).pos s
  show Sys2Proof.core.run (List.replicate n (Item.act a)).length (onAgenda (List.replicate n (.act a)) s.pos false s) = _
  rw [List.length_replicate, ran, ← kept]
  rfl

end

/-! ### Sleep boundaries -/

/-- A loop's `RUN_` bit takes a value. -/
def setRunning (l : Loop) (b : Bool) (s : State) : State :=
  match l with
  | .sensor => { s with runSensor := b }
  | .button => { s with runButton := b }
  | .scroll => { s with runScroll := b }

theorem stopLoop_eq (l : Loop) (s : State) : stopLoop l s = setRunning l false s := by
  cases l <;> rfl

theorem setRunning_self (l : Loop) (s : State) : setRunning l (running s l) s = s := by
  cases l <;> rfl

/-- The loop runs on exactly if it runs and no shutdown is requested (46_poll_loop.md R730). -/
theorem sleepBoundary_eq (l : Loop) (s : State) :
    sleepBoundary l s = setRunning l (running s l && !s.shutdownReq) s := by
  cases requested : s.shutdownReq with
  | true => rw [Bool.not_true, Bool.and_false, ← stopLoop_eq]; exact if_pos requested
  | false => rw [Bool.not_false, Bool.and_true, setRunning_self]; exact if_neg (by rw [requested]; decide)

/-- The boundary of a running loop. -/
theorem sleepBoundary_running {l : Loop} {s : State} (runs : running s l = true) :
    sleepBoundary l s = setRunning l (!s.shutdownReq) s := by
  rw [sleepBoundary_eq, runs, Bool.true_and]

end Sys2Proof.Machine
end

section
/-! PROOFS. O31: the button task (46_poll_loop.md R710, R711, R730; 70_reset_and_hazards.md R932). With nobody in between a
call of the cycle is its first rule step and then the rule steps that one leaves (`buttonCalls_atom`), so the task's own
steps, taken one by one, end as the cycle does (`buttonStep_times`). A pending release pays one sample a cycle
(`releasing_buttonCycled`), and the cycle that accepts it reports it (`buttonCycled_reports_release`). -/

namespace Sys2Proof.Machine

open Sys2Proof.Safety

variable {s t u : State} {a : AuxButton} {n : Nat}

/-! ### What the calls write -/

/-- From `s` to `t` only what the button task's rule steps write has changed. -/
def ButtonWrites (s t : State) : Prop :=
  t = { s with
    mlFlag := t.mlFlag, axState := t.axState, axEvent := t.axEvent, axConfirm := t.axConfirm
    reports := t.reports, events := t.events }

theorem ButtonWrites.trans (h : ButtonWrites s t) (k : ButtonWrites t u) : ButtonWrites s u := by
  rw [ButtonWrites, k, h]

theorem ButtonWrites.now (h : ButtonWrites s t) : t.now = s.now := by rw [h]
theorem ButtonWrites.pins (h : ButtonWrites s t) : t.pins = s.pins := by rw [h]
theorem ButtonWrites.params (h : ButtonWrites s t) : t.params = s.params := by rw [h]
theorem ButtonWrites.mlState (h : ButtonWrites s t) : t.mlState = s.mlState := by rw [h]
theorem ButtonWrites.interludes (h : ButtonWrites s t) : t.interludes = s.interludes := by rw [h]
theorem ButtonWrites.slacks (h : ButtonWrites s t) : t.slacks = s.slacks := by rw [h]
theorem ButtonWrites.shutdownReq (h : ButtonWrites s t) : t.shutdownReq = s.shutdownReq := by rw [h]
theorem ButtonWrites.runButton (h : ButtonWrites s t) : t.runButton = s.runButton := by rw [h]
theorem ButtonWrites.buttonK (h : ButtonWrites s t) : t.buttonK = s.buttonK := by rw [h]
theorem ButtonWrites.buttonSleep (h : ButtonWrites s t) : t.buttonSleep = s.buttonSleep := by rw [h]

theorem buttonWrites_auxConfirm (a : AuxButton) (s : State) : ButtonWrites s (auxConfirm a s) := by
  rw [auxConfirm_eq]
  split
  case isTrue => rfl
  case isFalse =>
    split
    case isTrue => rfl
    case isFalse => split <;> rfl

theorem buttonWrites_latchTake (b : MainButton) (s : State) : ButtonWrites s (latchTake b s).2 := by
  rw [latchTake]
  split <;> rfl

theorem buttonWrites_latchRelease (b : MainButton) (s : State) : ButtonWrites s (latchRelease b s) := by
  rw [latchRelease]
  split <;> rfl

theorem buttonWrites_atom (st : ButtonStep) (s : State) : ButtonWrites s (buttonAtom st s).1 := by
  cases st with
  | confirm a => exact buttonWrites_auxConfirm a s
  | latchTake b => exact buttonWrites_latchTake b s
  | latchRelease b => exact buttonWrites_latchRelease b s
  | auxTake a | latchReport b | auxReport a => rfl

/-- O28 for the poll itself. -/
theorem latchPoll_eq (b : MainButton) (alone : s.interludes = []) :
    latchPoll b s =
      if perMainGet s.mlFlag b = .set then setFlag b .clear (reportButtons s) else s :=
  Host.Outcome.next.inj (latchPollReports b s alone)

/-- O30 for the poll itself. -/
theorem auxPoll_eq (a : AuxButton) (alone : s.interludes = []) :
    auxPoll a s = { clearEvent a s with
      reports := if perAuxGet s.axEvent a = true then s.reports ++ [buttonReport (buttonMask s)] else s.reports } :=
  Host.Outcome.next.inj (auxPollReports a s alone)

theorem buttonWrites_latchPoll (b : MainButton) (alone : s.interludes = []) : ButtonWrites s (latchPoll b s) := by
  rw [latchPoll_eq b alone]
  split <;> rfl

theorem buttonWrites_auxPoll (a : AuxButton) (alone : s.interludes = []) : ButtonWrites s (auxPoll a s) := by
  rw [auxPoll_eq a alone]
  rfl

theorem buttonWrites_call (st : ButtonStep) (alone : s.interludes = []) : ButtonWrites s (buttonCall st s) := by
  cases st with
  | confirm a => exact buttonWrites_auxConfirm a s
  | latchTake b => exact buttonWrites_latchPoll b alone
  | latchRelease b => exact buttonWrites_latchRelease b s
  | auxTake a => exact buttonWrites_auxPoll a alone
  | latchReport b | auxReport a => rfl

theorem buttonCalls_cons (st : ButtonStep) (rest : List ButtonStep) (alone : s.interludes = []) :
    buttonCalls (st :: rest) s = buttonCalls rest (buttonCall st s) := by
  have stillAlone := (buttonWrites_call st alone).interludes.trans alone
  rw [buttonCalls, yield_nil stillAlone]

theorem buttonCalls_foldl (sts : List ButtonStep) (alone : s.interludes = []) :
    buttonCalls sts s = sts.foldl (fun t st => buttonCall st t) s := by
  induction sts generalizing s with
  | nil => rfl
  | cons st rest ih =>
    rw [buttonCalls_cons st rest alone]
    exact ih ((buttonWrites_call st alone).interludes.trans alone)

theorem buttonWrites_calls (sts : List ButtonStep) (alone : s.interludes = []) :
    ButtonWrites s (buttonCalls sts s) := by
  induction sts generalizing s with
  | nil => rfl
  | cons st rest ih =>
    have called := buttonWrites_call st alone
    rw [buttonCalls_cons st rest alone]
    exact called.trans (ih (called.interludes.trans alone))

/-! ### The cycle as an instruction -/

/-- The state after the eight calls of a cycle. -/
def buttonCalled (s : State) : State := buttonCalls buttonCycleSteps s

theorem buttonWrites_called (alone : s.interludes = []) : ButtonWrites s (buttonCalled s) :=
  buttonWrites_calls buttonCycleSteps alone

theorem execAll_buttonCalls (alone : s.interludes = []) :
    execAll [.auxConfirm .m, .auxConfirm .s4, .auxConfirm .s5, .latchPoll .left, .latchPoll .right, .auxPoll .m,
      .auxPoll .s4, .auxPoll .s5] s = .next (buttonCalled s) := by
  rw [buttonCalled, buttonCalls_foldl _ alone]
  simp only [buttonCycleSteps, List.foldl_cons, List.foldl_nil]
  rfl

/-- The button task stands before some rule steps, or asleep. -/
def atButton (k : List ButtonStep) (sleep : Option Time) (s : State) : State :=
  { s with buttonK := k, buttonSleep := sleep }

theorem atButton_self {k : List ButtonStep} {sleep : Option Time} (steps : s.buttonK = k) (asleep : s.buttonSleep = sleep) :
    atButton k sleep s = s := by
  subst steps asleep
  rfl

theorem buttonCycleWith_stopped {sleep : State → State} (stopped : s.runButton = false) :
    buttonCycleWith sleep s = refuse (.loopStopped .button) := if_pos stopped

/-- A cycle from the boundary: the calls, the sleep, the boundary's test. -/
theorem buttonCycleWith_running {sleep : State → State} (boundary : ButtonAtBoundary s) (runs : s.runButton = true) :
    buttonCycleWith sleep s = .ok (sleepBoundary .button (sleep (buttonCalled s))) := by
  obtain ⟨noSteps, awake⟩ := boundary
  have idle : buttonIdle s = s := atButton_self noSteps awake
  rw [buttonCycleWith, if_neg (by rw [runs]; decide), idle, buttonToDo, if_pos noSteps, buttonCalled]

theorem sleepBoundary_button (runs : s.runButton = true) :
    sleepBoundary .button s = { s with runButton := !s.shutdownReq } := sleepBoundary_running runs

theorem exec_btask (exact : ExactSchedule s) (boundary : ButtonAtBoundary s) (runs : s.runButton = true) :
    exec .btask s = .next { buttonCalled s with runButton := !(buttonCalled s).shutdownReq } := by
  have stillRuns : (buttonCalled s).runButton = true := (buttonWrites_called exact.1).runButton.trans runs
  show toOutcome (buttonCycleWith id s) = _
  rw [buttonCycleWith_running boundary runs, id, sleepBoundary_button stillRuns]
  rfl

/-- A sleep of `T`, then the boundary of the running task. -/
theorem sleepBoundary_advance_button (T : Nat) (runs : s.runButton = true) :
    sleepBoundary .button (advance T s) =
      { s with now := s.now + BitVec.ofNat 32 T, runButton := !s.shutdownReq } :=
  sleepBoundary_button runs

/-- A cycle whose sleep is exact ends that much later. -/
theorem buttonCycleWith_wait (T : Nat) (exact : ExactSchedule s) (boundary : ButtonAtBoundary s)
    (runs : s.runButton = true) :
    buttonCycleWith (wait .button T) s =
      .ok { buttonCalled s with now := s.now + BitVec.ofNat 32 T, runButton := !(buttonCalled s).shutdownReq } := by
  have called := buttonWrites_called exact.1
  have slept : wait .button T (buttonCalled s) = advance T (buttonCalled s) :=
    wait_runner (called.interludes.trans exact.1) (called.slacks.trans exact.2) ..
  rw [buttonCycleWith_running boundary runs, slept,
    sleepBoundary_advance_button T (called.runButton.trans runs), called.now]

theorem exec_buttonCycle (exact : ExactSchedule s) (boundary : ButtonAtBoundary s) (runs : s.runButton = true) :
    exec .buttonCycle s =
      .next { buttonCalled s with now := s.now + 1000, runButton := !(buttonCalled s).shutdownReq } :=
  congrArg toOutcome (buttonCycleWith_wait Config.tBtask exact boundary runs)

/-! ### The task's own steps -/

theorem buttonStep_stopped (stopped : s.runButton = false) : buttonStep s = s :=
  if_neg (by rw [stopped]; decide)

/-- A rule step of the cycle; after the last one the sleep begins. -/
theorem buttonStep_atom {st : ButtonStep} {rest : List ButtonStep} (runs : s.runButton = true)
    (steps : s.buttonK = st :: rest) :
    buttonStep s = atButton ((buttonAtom st s).2 ++ rest)
      (if (buttonAtom st s).2 ++ rest = [] then some s.now else none) (buttonAtom st s).1 := by
  rw [buttonStep, if_pos runs, steps]
  rfl

theorem buttonStep_begin (runs : s.runButton = true) (noSteps : s.buttonK = []) (awake : s.buttonSleep = none) :
    buttonStep s = atButton buttonCycleSteps none s := by
  rw [buttonStep, if_pos runs, noSteps, awake]
  rfl

/-- A step of the sleeping task: too early, the boundary's test, or the next cycle. -/
theorem buttonStep_asleep {t0 : Time} (runs : s.runButton = true) (noSteps : s.buttonK = [])
    (asleep : s.buttonSleep = some t0) :
    buttonStep s =
      if elapsedSince s.now t0 < 1000 then s
      else if s.shutdownReq = true then stopLoop .button { s with buttonSleep := none }
      else atButton buttonCycleSteps none s := by
  rw [buttonStep, if_pos runs, noSteps, asleep]
  rfl

/-! ### Where the program and the task stand -/

/-- The state `s`, but with the program and the button task standing as in `v`. -/
def standingAs (v s : State) : State :=
  { s with
    agenda := v.agenda, pos := v.pos, ended := v.ended, buttonK := v.buttonK, buttonSleep := v.buttonSleep }

/-- An operation that neither reads nor writes where the program and the button task stand. -/
def StandBlind (f : State → State) : Prop := ∀ v s, f (standingAs v s) = standingAs v (f s)

theorem standingAs_atButton {k : List ButtonStep} {sleep : Option Time} (wrote : ButtonWrites s t) :
    standingAs (atButton k sleep s) t = atButton k sleep t := by
  rw [wrote]
  rfl

theorem standBlind_auxConfirm (a : AuxButton) : StandBlind (auxConfirm a) := by
  intro v s
  rw [auxConfirm_eq, auxConfirm_eq, apply_ite (standingAs v), apply_ite (standingAs v), apply_ite (standingAs v)]
  rfl

theorem standBlind_latchRelease (b : MainButton) : StandBlind (latchRelease b) := by
  intro v s
  rw [latchRelease, latchRelease, apply_ite (standingAs v)]
  rfl

theorem latchTake_standingAs (b : MainButton) (v s : State) :
    latchTake b (standingAs v s) = ((latchTake b s).1, standingAs v (latchTake b s).2) := by
  by_cases isSet : perMainGet s.mlFlag b = .set
  case pos => rw [latchTake_set isSet]; exact latchTake_set (s := standingAs v s) isSet
  case neg => rw [latchTake_other isSet]; exact latchTake_other (s := standingAs v s) isSet

theorem buttonAtom_standingAs (st : ButtonStep) (v s : State) :
    buttonAtom st (standingAs v s) = (standingAs v (buttonAtom st s).1, (buttonAtom st s).2) := by
  cases st with
  | confirm a => exact congrArg (·, []) (standBlind_auxConfirm a v s)
  | latchTake b => rw [buttonAtom, latchTake_standingAs]; rfl
  | latchRelease b => exact congrArg (·, []) (standBlind_latchRelease b v s)
  | auxTake a | latchReport b | auxReport a => rfl

/-- The task's own step does not look at the program. -/
theorem agendaBlind_buttonStep : AgendaBlind buttonStep := by
  intro agenda pos ended s
  cases runs : s.runButton with
  | false =>
    rw [buttonStep_stopped runs, buttonStep_stopped (s := onAgenda agenda pos ended s) runs]
  | true =>
    cases steps : s.buttonK with
    | cons st rest =>
      have atom := buttonAtom_standingAs st (onAgenda agenda pos ended s) s
      have same : standingAs (onAgenda agenda pos ended s) s = onAgenda agenda pos ended s := rfl
      rw [same] at atom
      rw [buttonStep_atom runs steps, buttonStep_atom (s := onAgenda agenda pos ended s) runs steps, atom]
      rfl
    | nil =>
      cases asleep : s.buttonSleep with
      | none =>
        rw [buttonStep_begin runs steps asleep,
          buttonStep_begin (s := onAgenda agenda pos ended s) runs steps asleep]
        rfl
      | some t0 =>
        rw [buttonStep_asleep runs steps asleep,
          buttonStep_asleep (s := onAgenda agenda pos ended s) runs steps asleep,
          apply_ite (onAgenda agenda pos ended), apply_ite (onAgenda agenda pos ended)]
        rfl

theorem runItems_button (n : Nat) (s : State) :
    runItems (List.replicate n (.act .button)) s = .next (ranItems n (times buttonStep n s)) :=
  runItems_replicate_act (a := .button) (fun _ _ _ _ => agendaBlind_buttonStep ..) n s

/-! ### A cycle taken step by step -/

/-- With nobody in between, a call is its first rule step and the steps that one leaves. -/
theorem buttonCalls_atom (st : ButtonStep) (rest : List ButtonStep) (alone : s.interludes = []) :
    buttonCalls (st :: rest) s = buttonCalls ((buttonAtom st s).2 ++ rest) (buttonAtom st s).1 := by
  rw [buttonCalls_cons st rest alone]
  cases st with
  | confirm a | latchReport b | latchRelease b | auxReport a => rfl
  | latchTake b =>
    by_cases isSet : perMainGet s.mlFlag b = .set
    case pos =>
      have taken : buttonAtom (.latchTake b) s = (setFlag b .read s, [.latchReport b, .latchRelease b]) := by
        rw [buttonAtom, latchTake_set isSet]; rfl
      have finish : latchPoll b s = latchRelease b (reportButtons (setFlag b .read s)) := by
        rw [latchPoll_set isSet, latchFinish, yield_nil (s := setFlag b .read s) alone,
          yield_nil (s := reportButtons (setFlag b .read s)) alone]
      rw [taken, buttonCall, finish, List.cons_append, List.cons_append, List.nil_append,
        buttonCalls_cons (s := setFlag b .read s) _ _ alone, buttonCalls_cons _ _ (by exact alone)]
      rfl
    case neg =>
      have taken : buttonAtom (.latchTake b) s = (s, []) := by rw [buttonAtom, latchTake_other isSet]; rfl
      rw [taken, buttonCall, latchPoll_other isSet, List.nil_append]
  | auxTake a =>
    by_cases event : perAuxGet s.axEvent a = true
    case pos =>
      have taken : buttonAtom (.auxTake a) s = (clearEvent a s, [.auxReport a]) :=
        congrArg (clearEvent a s, ·) (if_pos event)
      rw [taken, buttonCall, auxPoll_event alone event, List.cons_append, List.nil_append,
        buttonCalls_cons (s := clearEvent a s) _ _ alone]
      rfl
    case neg =>
      have taken : buttonAtom (.auxTake a) s = (clearEvent a s, []) :=
        congrArg (clearEvent a s, ·) (if_neg event)
      rw [taken, buttonCall, auxPoll_noEvent event, List.nil_append]

/-- At most how many rule steps a call has left. -/
def callLength : ButtonStep → Nat
  | .latchTake _ => 3
  | .auxTake _ => 2
  | .confirm _ | .latchReport _ | .latchRelease _ | .auxReport _ => 1

/-- At most how many rule steps some calls have left. -/
def callsLength (sts : List ButtonStep) : Nat := (sts.map callLength).sum

/-- A rule step leaves fewer. -/
theorem callsLength_atom (st : ButtonStep) (rest : List ButtonStep) (s : State) :
    callsLength ((buttonAtom st s).2 ++ rest) < callsLength (st :: rest) := by
  have fewer : callsLength (buttonAtom st s).2 < callLength st := by
    cases st with
    | confirm a | latchReport b | latchRelease b | auxReport a => exact Nat.one_pos
    | latchTake b =>
      simp only [buttonAtom]
      split
      case isTrue => exact (by decide : 2 < 3)
      case isFalse => exact (by decide : 0 < 3)
    | auxTake a =>
      simp only [buttonAtom]
      split
      case isTrue => exact (by decide : 1 < 2)
      case isFalse => exact (by decide : 0 < 2)
  simp only [callsLength, List.map_append, List.sum_append, List.map_cons, List.sum_cons] at fewer ⊢
  omega

/-- A rule step of the running task that stands before it. -/
theorem buttonStep_atButton (st : ButtonStep) (rest : List ButtonStep) (runs : s.runButton = true) :
    buttonStep (atButton (st :: rest) none s) =
      atButton ((buttonAtom st s).2 ++ rest) (if (buttonAtom st s).2 ++ rest = [] then some s.now else none)
        (buttonAtom st s).1 := by
  have atom := buttonAtom_standingAs st (atButton (st :: rest) none s) s
  have here : standingAs (atButton (st :: rest) none s) s = atButton (st :: rest) none s := rfl
  rw [here, standingAs_atButton (buttonWrites_atom st s)] at atom
  rw [buttonStep_atom (s := atButton (st :: rest) none s) runs rfl, atom]
  rfl

/-- The task's own steps from some calls on end as the calls do, and the sleep begins. -/
theorem buttonStep_times (sts : List ButtonStep) {s : State} (left : sts ≠ []) (runs : s.runButton = true)
    (alone : s.interludes = []) :
    ∃ n, times buttonStep n (atButton sts none s) = atButton [] (some s.now) (buttonCalls sts s) := by
  match sts, left with
  | st :: rest, _ =>
    have stepped := buttonStep_atButton st rest runs
    have wrote := buttonWrites_atom st s
    have shorter := callsLength_atom st rest s
    rw [buttonCalls_atom st rest alone]
    by_cases last : (buttonAtom st s).2 ++ rest = []
    case pos =>
      refine ⟨1, ?_⟩
      rw [times_one, stepped, if_pos last, last]
      rfl
    case neg =>
      obtain ⟨n, ends⟩ := buttonStep_times ((buttonAtom st s).2 ++ rest) last (wrote.runButton.trans runs)
        (wrote.interludes.trans alone)
      refine ⟨n + 1, ?_⟩
      rw [times_succ, stepped, if_neg last, ends, wrote.now]
  termination_by callsLength sts

/-- A cycle from the boundary, by the task's own steps. -/
theorem runItems_buttonCycle (exact : ExactSchedule s) (boundary : ButtonAtBoundary s) (runs : s.runButton = true) :
    ∃ n, runItems (List.replicate n (.act .button)) s =
      .next (ranItems n { buttonCalled s with buttonSleep := some s.now }) := by
  obtain ⟨noSteps, awake⟩ := boundary
  obtain ⟨n, ends⟩ := buttonStep_times (s := s) buttonCycleSteps (by decide) runs exact.1
  have called := buttonWrites_called exact.1
  have steps : (buttonCalled s).buttonK = [] := called.buttonK.trans noSteps
  refine ⟨n + 1, ?_⟩
  rw [runItems_button, times_succ, buttonStep_begin runs noSteps awake, ends, ← steps]
  rfl

/-! ### A pending release -/

/-- `AuxConfirm` of the three auxiliary buttons, the first calls of a cycle (46_poll_loop.md R710). -/
def auxConfirms (s : State) : State := auxConfirm .s5 (auxConfirm .s4 (auxConfirm .m s))

/-- `LatchPoll` of the two main buttons, the calls that follow them. -/
def latchPolls (s : State) : State := latchPoll .right (latchPoll .left s)

/-- `AuxPoll` of some buttons in order; of all three, the last calls of a cycle. -/
def auxPolls (buttons : List AuxButton) (s : State) : State := buttons.foldl (fun t c => auxPoll c t) s

theorem buttonWrites_auxConfirms (s : State) : ButtonWrites s (auxConfirms s) :=
  ((buttonWrites_auxConfirm .m s).trans (buttonWrites_auxConfirm .s4 _)).trans (buttonWrites_auxConfirm .s5 _)

theorem buttonWrites_latchPolls (alone : s.interludes = []) : ButtonWrites s (latchPolls s) := by
  have left := buttonWrites_latchPoll .left alone
  exact left.trans (buttonWrites_latchPoll .right (left.interludes.trans alone))

theorem buttonWrites_auxPolls (buttons : List AuxButton) (alone : s.interludes = []) :
    ButtonWrites s (auxPolls buttons s) := by
  induction buttons generalizing s with
  | nil => rfl
  | cons c rest ih =>
    have polled := buttonWrites_auxPoll c alone
    exact polled.trans (ih (polled.interludes.trans alone))

/-- A release of the button that owes `n` samples, its pin released; one that owes none is accepted (44_eager_debounce.md
R605). -/
structure Releasing (a : AuxButton) (n : Nat) (s : State) : Prop where
  contact : perAuxGet s.axState a = if n = 0 then .up else .down
  owed : perAuxGet s.axConfirm a = n
  released : ¬ AuxPressed a s

/-- What only writes elsewhere keeps it. -/
theorem Releasing.congr (h : Releasing a n s) (wrote : ButtonWrites s t)
    (contact : perAuxGet t.axState a = perAuxGet s.axState a)
    (owed : perAuxGet t.axConfirm a = perAuxGet s.axConfirm a) : Releasing a n t where
  contact := contact.trans h.contact
  owed := owed.trans h.owed
  released := by
    rw [AuxPressed, pinLevel, wrote.pins, wrote.params]
    exact h.released

/-- A sample of it has been paid, the last one making an event. -/
def ReleasePaid (a : AuxButton) (n : Nat) (s : State) : Prop :=
  Releasing a n s ∧ (n = 0 → perAuxGet s.axEvent a = true)

theorem releasePaid_auxConfirm (h : Releasing a (n + 1) s) : ReleasePaid a n (auxConfirm a s) := by
  rw [auxConfirm_released h.owed h.released]
  cases n with
  | zero => exact ⟨⟨perAuxGet_set_same .., perAuxGet_set_same .., h.released⟩, fun _ => perAuxGet_set_same ..⟩
  | succ n => exact ⟨⟨h.contact, perAuxGet_set_same .., h.released⟩, nofun⟩

/-- A sample of another button keeps all three of this one. -/
theorem auxConfirm_other {c : AuxButton} (other : a ≠ c) (s : State) :
    perAuxGet (auxConfirm c s).axState a = perAuxGet s.axState a ∧
      perAuxGet (auxConfirm c s).axConfirm a = perAuxGet s.axConfirm a ∧
      perAuxGet (auxConfirm c s).axEvent a = perAuxGet s.axEvent a := by
  rw [auxConfirm_eq]
  split
  case isTrue => exact ⟨rfl, rfl, rfl⟩
  case isFalse =>
    split
    case isTrue => exact ⟨rfl, perAuxGet_set_other _ _ other, rfl⟩
    case isFalse =>
      split
      case isTrue =>
        exact ⟨perAuxGet_set_other _ _ other, perAuxGet_set_other _ _ other, perAuxGet_set_other _ _ other⟩
      case isFalse => exact ⟨rfl, perAuxGet_set_other _ _ other, rfl⟩

theorem releasing_auxConfirm_other {c : AuxButton} (other : a ≠ c) (h : Releasing a n s) :
    Releasing a n (auxConfirm c s) := by
  obtain ⟨contact, owed, -⟩ := auxConfirm_other other s
  exact h.congr (buttonWrites_auxConfirm c s) contact owed

theorem ReleasePaid.sampleOther {c : AuxButton} (h : ReleasePaid a n s) (other : a ≠ c) :
    ReleasePaid a n (auxConfirm c s) := by
  obtain ⟨releasing, event⟩ := h
  obtain ⟨-, -, kept⟩ := auxConfirm_other other s
  exact ⟨releasing_auxConfirm_other other releasing, fun paid => kept.trans (event paid)⟩

/-- The three samples of a cycle pay one. -/
theorem releasePaid_auxConfirms (h : Releasing a (n + 1) s) : ReleasePaid a n (auxConfirms s) := by
  cases a with
  | m => exact ((releasePaid_auxConfirm h).sampleOther (by decide)).sampleOther (by decide)
  | s4 => exact (releasePaid_auxConfirm (releasing_auxConfirm_other (by decide) h)).sampleOther (by decide)
  | s5 =>
    exact releasePaid_auxConfirm
      (releasing_auxConfirm_other (by decide) (releasing_auxConfirm_other (by decide) h))

/-- The latch polls write nothing of the auxiliary buttons. -/
theorem latchPoll_aux (b : MainButton) (alone : s.interludes = []) :
    (latchPoll b s).axState = s.axState ∧ (latchPoll b s).axConfirm = s.axConfirm ∧
      (latchPoll b s).axEvent = s.axEvent := by
  rw [latchPoll_eq b alone]
  split <;> exact ⟨rfl, rfl, rfl⟩

theorem latchPolls_aux (alone : s.interludes = []) :
    (latchPolls s).axState = s.axState ∧ (latchPolls s).axConfirm = s.axConfirm ∧
      (latchPolls s).axEvent = s.axEvent := by
  obtain ⟨state, confirm, event⟩ := latchPoll_aux .left alone
  have left := (buttonWrites_latchPoll .left alone).interludes.trans alone
  obtain ⟨state', confirm', event'⟩ := latchPoll_aux .right left
  exact ⟨state'.trans state, confirm'.trans confirm, event'.trans event⟩

/-- The auxiliary polls write of the auxiliary buttons the event flags only. -/
theorem auxPolls_aux (buttons : List AuxButton) (alone : s.interludes = []) :
    (auxPolls buttons s).axState = s.axState ∧ (auxPolls buttons s).axConfirm = s.axConfirm := by
  induction buttons generalizing s with
  | nil => exact ⟨rfl, rfl⟩
  | cons c rest ih =>
    have polled : (auxPoll c s).axState = s.axState ∧ (auxPoll c s).axConfirm = s.axConfirm := by
      rw [auxPoll_eq c alone]; exact ⟨rfl, rfl⟩
    obtain ⟨state, confirm⟩ := ih ((buttonWrites_auxPoll c alone).interludes.trans alone)
    exact ⟨state.trans polled.1, confirm.trans polled.2⟩

theorem buttonMask_congr (state : t.mlState = s.mlState) (aux : t.axState = s.axState) : buttonMask t = buttonMask s := by
  rw [buttonMask, state, aux, buttonMask]

/-- The polls only add reports. -/
theorem auxPolls_reports (buttons : List AuxButton) (s : State) :
    ∃ l, (auxPolls buttons s).reports = s.reports ++ l := by
  induction buttons generalizing s with
  | nil => exact appended_nil s.reports
  | cons c rest ih => exact appended_trans (othersActed_auxPoll c s).reports (ih (auxPoll c s))

/-- A poll of a button with an event among others reports all five buttons. -/
theorem auxPolls_report (buttons : List AuxButton) (alone : s.interludes = []) (among : a ∈ buttons)
    (event : perAuxGet s.axEvent a = true) :
    ∃ l, (auxPolls buttons s).reports = s.reports ++ l ∧ buttonReport (buttonMask s) ∈ l := by
  induction buttons generalizing s with
  | nil => cases among
  | cons c rest ih =>
    by_cases here : a = c
    case pos =>
      subst here
      obtain ⟨l, more⟩ := auxPolls_reports rest (auxPoll a s)
      have polled : (auxPoll a s).reports = s.reports ++ [buttonReport (buttonMask s)] := by
        rw [auxPoll_event alone event]; rfl
      rw [polled, List.append_assoc] at more
      exact ⟨_, more, List.mem_append_left _ (List.mem_singleton_self _)⟩
    case neg =>
      have polled := buttonWrites_auxPoll c alone
      have still : perAuxGet (auxPoll c s).axEvent a = true := by
        rw [auxPoll_eq c alone]
        exact (perAuxGet_set_other _ _ here).trans event
      have mask : buttonMask (auxPoll c s) = buttonMask s :=
        buttonMask_congr polled.mlState (by rw [auxPoll_eq c alone]; rfl)
      obtain ⟨l, first⟩ := (othersActed_auxPoll c s).reports
      obtain ⟨l', more, reported⟩ := ih (polled.interludes.trans alone) (List.mem_of_ne_of_mem here among) still
      rw [first, List.append_assoc] at more
      rw [mask] at reported
      exact ⟨_, more, List.mem_append_right _ reported⟩

/-- The state before the auxiliary polls of a cycle. -/
def beforeAuxPolls (s : State) : State := latchPolls (auxConfirms s)

theorem buttonCalled_eq (alone : s.interludes = []) :
    buttonCalled s = auxPolls [.m, .s4, .s5] (beforeAuxPolls s) := by
  rw [buttonCalled, buttonCalls_foldl _ alone]
  simp only [buttonCycleSteps, List.foldl_cons, List.foldl_nil, buttonCall, auxPolls, beforeAuxPolls, latchPolls,
    auxConfirms]

theorem buttonWrites_beforeAuxPolls (alone : s.interludes = []) : ButtonWrites s (beforeAuxPolls s) := by
  have confirmed := buttonWrites_auxConfirms s
  exact confirmed.trans (buttonWrites_latchPolls (confirmed.interludes.trans alone))

theorem beforeAuxPolls_reports (s : State) : ∃ l, (beforeAuxPolls s).reports = s.reports ++ l :=
  appended_trans (othersActed_auxConfirm .m s).reports <| appended_trans (othersActed_auxConfirm .s4 _).reports <|
    appended_trans (othersActed_auxConfirm .s5 _).reports <| appended_trans (othersActed_latchPoll .left _).reports
      (othersActed_latchPoll .right _).reports

theorem releasePaid_beforeAuxPolls (alone : s.interludes = []) (h : Releasing a (n + 1) s) :
    ReleasePaid a n (beforeAuxPolls s) := by
  obtain ⟨confirmed, event⟩ := releasePaid_auxConfirms h
  have stillAlone := (buttonWrites_auxConfirms s).interludes.trans alone
  obtain ⟨state, confirm, kept⟩ := latchPolls_aux stillAlone
  exact ⟨confirmed.congr (buttonWrites_latchPolls stillAlone) (congrArg (perAuxGet · a) state)
    (congrArg (perAuxGet · a) confirm), fun paid => (congrArg (perAuxGet · a) kept).trans (event paid)⟩

/-- A cycle pays one of the samples owed. -/
theorem releasing_buttonCalled (alone : s.interludes = []) (h : Releasing a (n + 1) s) :
    Releasing a n (buttonCalled s) := by
  have stillAlone := (buttonWrites_beforeAuxPolls alone).interludes.trans alone
  obtain ⟨state, confirm⟩ := auxPolls_aux [.m, .s4, .s5] stillAlone
  obtain ⟨releasing, -⟩ := releasePaid_beforeAuxPolls alone h
  rw [buttonCalled_eq alone]
  exact releasing.congr (buttonWrites_auxPolls _ stillAlone)
    (congrArg (perAuxGet · a) state) (congrArg (perAuxGet · a) confirm)

/-- Between `s` and `t` all five buttons are reported, as they are in `t`. -/
def ReportsButtons (s t : State) : Prop :=
  ∃ l, t.reports = s.reports ++ l ∧ buttonReport (buttonMask t) ∈ l

theorem ReportsButtons.later (h : ReportsButtons s t) (time : Time) : ReportsButtons s { t with now := time } := h

/-- The cycle that accepts the release reports it. -/
theorem buttonCalled_reports_release (alone : s.interludes = []) (h : Releasing a 1 s) :
    ReportsButtons s (buttonCalled s) := by
  have stillAlone := (buttonWrites_beforeAuxPolls alone).interludes.trans alone
  obtain ⟨-, event⟩ := releasePaid_beforeAuxPolls alone h
  have every : a ∈ [AuxButton.m, .s4, .s5] := by cases a <;> decide
  obtain ⟨l, before⟩ := beforeAuxPolls_reports s
  obtain ⟨l', after, reported⟩ := auxPolls_report [.m, .s4, .s5] stillAlone every (event rfl)
  have mask : buttonMask (buttonCalled s) = buttonMask (beforeAuxPolls s) := by
    rw [buttonCalled_eq alone]
    exact buttonMask_congr (buttonWrites_auxPolls _ stillAlone).mlState (auxPolls_aux _ stillAlone).1
  rw [before, List.append_assoc, ← buttonCalled_eq alone] at after
  rw [← mask] at reported
  exact ⟨l ++ l', after, List.mem_append_right l reported⟩

/-- The running task stands at its boundary, alone, and no shutdown is requested. -/
structure CycleReady (s : State) : Prop where
  exact : ExactSchedule s
  boundary : ButtonAtBoundary s
  runs : s.runButton = true
  wanted : s.shutdownReq = false

/-- The state after such a cycle. -/
def buttonCycled (s : State) : State := { buttonCalled s with now := s.now + 1000 }

theorem CycleReady.cycled (h : CycleReady s) : exec .buttonCycle s = .next (buttonCycled s) := by
  have called := buttonWrites_called h.exact.1
  have runsOn : (!(buttonCalled s).shutdownReq) = (buttonCalled s).runButton := by
    rw [called.shutdownReq, called.runButton, h.wanted, h.runs]; rfl
  rw [exec_buttonCycle h.exact h.boundary h.runs, runsOn]
  rfl

theorem CycleReady.later (h : CycleReady s) (wrote : ButtonWrites s t) (time : Time) :
    CycleReady { t with now := time } :=
  ⟨⟨wrote.interludes.trans h.exact.1, wrote.slacks.trans h.exact.2⟩,
    ⟨wrote.buttonK.trans h.boundary.1, wrote.buttonSleep.trans h.boundary.2⟩, wrote.runButton.trans h.runs,
    wrote.shutdownReq.trans h.wanted⟩

theorem CycleReady.next (h : CycleReady s) : CycleReady (buttonCycled s) :=
  h.later (buttonWrites_called h.exact.1) _

theorem Releasing.later (h : Releasing a n s) (time : Time) : Releasing a n { s with now := time } :=
  ⟨h.contact, h.owed, h.released⟩

theorem releasing_buttonCycled (alone : s.interludes = []) (h : Releasing a (n + 1) s) :
    Releasing a n (buttonCycled s) :=
  (releasing_buttonCalled alone h).later _

theorem buttonCycled_reports_release (alone : s.interludes = []) (h : Releasing a 1 s) :
    ReportsButtons s (buttonCycled s) :=
  (buttonCalled_reports_release alone h).later _

/-- Cycle after cycle pays a sample, and takes its sleep. -/
theorem execAll_buttonCycle (k : Nat) (ready : CycleReady s) (h : Releasing a (n + k) s) :
    ∃ u, execAll (List.replicate k .buttonCycle) s = .next u ∧ CycleReady u ∧ Releasing a n u ∧
      u.now = s.now + BitVec.ofNat 32 (1000 * k) := by
  induction k generalizing s with
  | zero => exact ⟨s, rfl, ready, h, (BitVec.add_zero s.now).symm⟩
  | succ k ih =>
    obtain ⟨u, ran, readyThen, releasing, later⟩ := ih ready.next (releasing_buttonCycled ready.exact.1 h)
    refine ⟨u, ?_, readyThen, releasing, ?_⟩
    · rw [List.replicate_succ, execAll_cons _ ready.cycled, ran]
    · have total : 1000 * (k + 1) = 1000 + 1000 * k := by omega
      rw [later, total, BitVec.ofNat_add, ← BitVec.add_assoc]
      rfl

/-- Settles O31: a cycle is its calls and its boundary, at once or by the task's own steps; a step by where the task
stands; and ten cycles pay the ten samples of a release. -/
theorem buttonCycleRunsItsCalls : Obligations.ButtonCycleRunsItsCalls := by
  refine ⟨fun s exact boundary runs => ?calls, fun s stopped => ?stopped, fun s exact boundary runs => ?steps,
    fun s runs noSteps => ?step, fun a s exact boundary runs wanted down owed released => ?release⟩
  case calls =>
    exact ⟨buttonCalled s, execAll_buttonCalls exact.1, exec_btask exact boundary runs,
      exec_buttonCycle exact boundary runs⟩
  case stopped =>
    refine ⟨congrArg toOutcome (buttonCycleWith_stopped stopped), congrArg toOutcome (buttonCycleWith_stopped stopped),
      ?_⟩
    have ran := runItems_button 1 s
    rwa [times_one, buttonStep_stopped stopped] at ran
  case steps =>
    obtain ⟨n, ran⟩ := runItems_buttonCycle exact boundary runs
    exact ⟨buttonCalled s, n, execAll_buttonCalls exact.1, ran⟩
  case step =>
    have ran := runItems_button 1 s
    rw [times_one] at ran
    refine ⟨fun awake => ?_, fun t0 asleep => ?_⟩
    · rwa [buttonStep_begin runs noSteps awake] at ran
    · rwa [buttonStep_asleep runs noSteps asleep] at ran
  case release =>
    have ready : CycleReady s := ⟨exact, boundary, runs, wanted⟩
    obtain ⟨u, ran, readyThen, last, later⟩ := execAll_buttonCycle (n := 1) 9 ready ⟨down, owed, released⟩
    have accepted := releasing_buttonCycled readyThen.exact.1 last
    obtain ⟨l, added, reported⟩ := buttonCycled_reports_release readyThen.exact.1 last
    exact ⟨u, buttonCycled u, l, ran, readyThen.cycled, later, last.contact, last.owed, accepted.contact,
      accepted.owed, added, reported⟩

end Sys2Proof.Machine
end

section
/-! PROOFS. O34: the scroll task (46_poll_loop.md R720, R730). With nobody in between its own steps are the take, the
adjustment and, after an event, the report of `ScrollPoll` (45_scroll_decoder.md R660). -/

namespace Sys2Proof.Machine

open Sys2Proof.Safety

variable {s t : State}

/-! ### What the poll writes -/

/-- From `s` to `t` only what the scroll task's rule steps write has changed. -/
def ScrollWrites (s t : State) : Prop :=
  t = { s with scSpeed := t.scSpeed, scStopped := t.scStopped, scEvent := t.scEvent, reports := t.reports }

theorem ScrollWrites.now (h : ScrollWrites s t) : t.now = s.now := by rw [h]
theorem ScrollWrites.interludes (h : ScrollWrites s t) : t.interludes = s.interludes := by rw [h]
theorem ScrollWrites.slacks (h : ScrollWrites s t) : t.slacks = s.slacks := by rw [h]
theorem ScrollWrites.runScroll (h : ScrollWrites s t) : t.runScroll = s.runScroll := by rw [h]
theorem ScrollWrites.scrollK (h : ScrollWrites s t) : t.scrollK = s.scrollK := by rw [h]

theorem scrollWrites_poll (alone : s.interludes = []) : ScrollWrites s (scrollPoll s) := by
  rw [scrollPoll_alone alone]
  split <;> rfl

/-! ### The cycle as an instruction -/

/-- The scroll task stands before some rule steps, or asleep. -/
def atScroll (k : List ScrollStep) (sleep : Option Time) (s : State) : State :=
  { s with scrollK := k, scrollSleep := sleep }

theorem atScroll_self {k : List ScrollStep} {sleep : Option Time} (steps : s.scrollK = k) (asleep : s.scrollSleep = sleep) :
    atScroll k sleep s = s := by
  subst steps asleep
  rfl

theorem scrollCycleWith_stopped {sleep : State → State} (stopped : s.runScroll = false) :
    scrollCycleWith sleep s = refuse (.loopStopped .scroll) := if_pos stopped

/-- A cycle from the boundary: the poll, the sleep, the boundary's test. -/
theorem scrollCycleWith_running {sleep : State → State} (boundary : ScrollAtBoundary s) (runs : s.runScroll = true) :
    scrollCycleWith sleep s = .ok (sleepBoundary .scroll (sleep (scrollPoll s))) := by
  obtain ⟨noSteps, awake⟩ := boundary
  have idle : scrollIdle s = s := atScroll_self noSteps awake
  rw [scrollCycleWith, if_neg (by rw [runs]; decide), idle, scrollToDo, if_pos noSteps]
  rfl

theorem sleepBoundary_scroll (runs : s.runScroll = true) :
    sleepBoundary .scroll s = { s with runScroll := !s.shutdownReq } := sleepBoundary_running runs

theorem exec_stask (exact : ExactSchedule s) (boundary : ScrollAtBoundary s) (runs : s.runScroll = true) :
    exec .stask s = .next { scrollPoll s with runScroll := !(scrollPoll s).shutdownReq } := by
  have stillRuns : (scrollPoll s).runScroll = true := (scrollWrites_poll exact.1).runScroll.trans runs
  show toOutcome (scrollCycleWith id s) = _
  rw [scrollCycleWith_running boundary runs, id, sleepBoundary_scroll stillRuns]
  rfl

/-- A sleep of `T`, then the boundary of the running task. -/
theorem sleepBoundary_advance_scroll (T : Nat) (runs : s.runScroll = true) :
    sleepBoundary .scroll (advance T s) =
      { s with now := s.now + BitVec.ofNat 32 T, runScroll := !s.shutdownReq } :=
  sleepBoundary_scroll runs

/-- A cycle whose sleep is exact ends that much later. -/
theorem scrollCycleWith_wait (T : Nat) (exact : ExactSchedule s) (boundary : ScrollAtBoundary s)
    (runs : s.runScroll = true) :
    scrollCycleWith (wait .scroll T) s =
      .ok { scrollPoll s with now := s.now + BitVec.ofNat 32 T, runScroll := !(scrollPoll s).shutdownReq } := by
  have polled := scrollWrites_poll exact.1
  have slept : wait .scroll T (scrollPoll s) = advance T (scrollPoll s) :=
    wait_runner (polled.interludes.trans exact.1) (polled.slacks.trans exact.2) ..
  rw [scrollCycleWith_running boundary runs, slept,
    sleepBoundary_advance_scroll T (polled.runScroll.trans runs), polled.now]

theorem exec_scrollCycle (exact : ExactSchedule s) (boundary : ScrollAtBoundary s) (runs : s.runScroll = true) :
    exec .scrollCycle s = .next { scrollPoll s with now := s.now + 1000, runScroll := !(scrollPoll s).shutdownReq } :=
  congrArg toOutcome (scrollCycleWith_wait Config.tStask exact boundary runs)

/-! ### The task's own steps -/

theorem scrollStep_stopped (stopped : s.runScroll = false) : scrollStep s = s :=
  if_neg (by rw [stopped]; decide)

/-- A rule step of the cycle; after the last one the sleep begins. -/
theorem scrollStep_atom {st : ScrollStep} {rest : List ScrollStep} (runs : s.runScroll = true)
    (steps : s.scrollK = st :: rest) :
    scrollStep s = atScroll ((scrollAtom st s).2 ++ rest)
      (if (scrollAtom st s).2 ++ rest = [] then some s.now else none) (scrollAtom st s).1 := by
  rw [scrollStep, if_pos runs, steps]
  rfl

theorem scrollStep_begin (runs : s.runScroll = true) (noSteps : s.scrollK = []) (awake : s.scrollSleep = none) :
    scrollStep s = atScroll [.take] none s := by
  rw [scrollStep, if_pos runs, noSteps, awake]
  rfl

/-- A step of the sleeping task: too early, the boundary's test, or the next cycle. -/
theorem scrollStep_asleep {t0 : Time} (runs : s.runScroll = true) (noSteps : s.scrollK = [])
    (asleep : s.scrollSleep = some t0) :
    scrollStep s =
      if elapsedSince s.now t0 < 1000 then s
      else if s.shutdownReq = true then stopLoop .scroll { s with scrollSleep := none }
      else atScroll [.take] none s := by
  rw [scrollStep, if_pos runs, noSteps, asleep]
  rfl

theorem scrollAtom_onAgenda (st : ScrollStep) (agenda : List Item) (pos : Nat) (ended : Bool) (s : State) :
    scrollAtom st (onAgenda agenda pos ended s) = (onAgenda agenda pos ended (scrollAtom st s).1, (scrollAtom st s).2) := by
  cases st <;> rfl

/-- The task's own step does not look at the program. -/
theorem agendaBlind_scrollStep : AgendaBlind scrollStep := by
  intro agenda pos ended s
  cases runs : s.runScroll with
  | false => rw [scrollStep_stopped runs, scrollStep_stopped (s := onAgenda agenda pos ended s) runs]
  | true =>
    cases steps : s.scrollK with
    | cons st rest =>
      rw [scrollStep_atom runs steps, scrollStep_atom (s := onAgenda agenda pos ended s) runs steps,
        scrollAtom_onAgenda]
      rfl
    | nil =>
      cases asleep : s.scrollSleep with
      | none =>
        rw [scrollStep_begin runs steps asleep,
          scrollStep_begin (s := onAgenda agenda pos ended s) runs steps asleep]
        rfl
      | some t0 =>
        rw [scrollStep_asleep runs steps asleep,
          scrollStep_asleep (s := onAgenda agenda pos ended s) runs steps asleep,
          apply_ite (onAgenda agenda pos ended), apply_ite (onAgenda agenda pos ended)]
        rfl

theorem runItems_scroll (n : Nat) (s : State) :
    runItems (List.replicate n (.act .scroll)) s = .next (ranItems n (times scrollStep n s)) :=
  runItems_replicate_act (a := .scroll) (fun _ _ _ _ => agendaBlind_scrollStep ..) n s

/-! ### A cycle taken step by step -/

/-- A rule step of the running task that stands before it. -/
theorem scrollStep_atScroll (st : ScrollStep) (rest : List ScrollStep) (runs : s.runScroll = true) :
    scrollStep (atScroll (st :: rest) none s) =
      atScroll ((scrollAtom st s).2 ++ rest) (if (scrollAtom st s).2 ++ rest = [] then some s.now else none)
        (scrollAtom st s).1 := by
  rw [scrollStep_atom (s := atScroll (st :: rest) none s) runs rfl]
  cases st <;> rfl

/-- The take leaves the adjustment. -/
theorem scrollStep_take (runs : s.runScroll = true) :
    scrollStep (atScroll [.take] none s) = atScroll [.adjust s.scEvent s.scDir] none (clearScroll s) :=
  scrollStep_atScroll .take [] runs

/-- Without an event the adjustment is the last step. -/
theorem scrollStep_adjust_idle (d : ScrollDir) (runs : s.runScroll = true) :
    scrollStep (atScroll [.adjust false d] none s) = atScroll [] (some s.now) (speedAdjust false s) :=
  scrollStep_atScroll (.adjust false d) [] runs

/-- With one it leaves the report. -/
theorem scrollStep_adjust_event (d : ScrollDir) (runs : s.runScroll = true) :
    scrollStep (atScroll [.adjust true d] none s) = atScroll [.report d] none (speedAdjust true s) :=
  scrollStep_atScroll (.adjust true d) [] runs

theorem scrollStep_report (d : ScrollDir) (runs : s.runScroll = true) :
    scrollStep (atScroll [.report d] none s) = atScroll [] (some s.now) (reportWheel d s) :=
  scrollStep_atScroll (.report d) [] runs

/-- How many own steps a cycle from the boundary takes: its beginning, the take, the adjustment and, after an event, the
report. -/
def scrollSteps (s : State) : Nat := if s.scEvent = true then 4 else 3

/-- A cycle from the boundary, by the task's own steps. -/
theorem scrollStep_times (alone : s.interludes = []) (boundary : ScrollAtBoundary s) (runs : s.runScroll = true) :
    times scrollStep (scrollSteps s) s = atScroll [] (some s.now) (scrollPoll s) := by
  obtain ⟨noSteps, awake⟩ := boundary
  have begun := scrollStep_begin runs noSteps awake
  have taken := scrollStep_take runs
  rw [scrollPoll_alone alone, scrollSteps]
  cases event : s.scEvent with
  | false =>
    rw [event] at taken
    have adjusted := scrollStep_adjust_idle (s := clearScroll s) s.scDir runs
    show scrollStep (scrollStep (scrollStep s)) = _
    rw [begun, taken, adjusted]
    rfl
  | true =>
    rw [event] at taken
    have adjusted := scrollStep_adjust_event (s := clearScroll s) s.scDir runs
    have reported := scrollStep_report (s := speedAdjust true (clearScroll s)) s.scDir runs
    show scrollStep (scrollStep (scrollStep (scrollStep s))) = _
    rw [begun, taken, adjusted, reported]
    rfl

theorem runItems_scrollCycle (exact : ExactSchedule s) (boundary : ScrollAtBoundary s) (runs : s.runScroll = true) :
    runItems (List.replicate (scrollSteps s) (.act .scroll)) s =
      .next (ranItems (scrollSteps s) { scrollPoll s with scrollSleep := some s.now }) := by
  have steps : (scrollPoll s).scrollK = [] := (scrollWrites_poll exact.1).scrollK.trans boundary.1
  rw [runItems_scroll, scrollStep_times exact.1 boundary runs, ← steps]
  rfl

/-- Settles O34: a cycle is its poll and its boundary, at once or by the task's own steps; and a step by where the task
stands. -/
theorem scrollCycleRunsItsCall : Obligations.ScrollCycleRunsItsCall := by
  refine ⟨fun s exact boundary runs => ?call, fun s stopped => ?stopped, fun s exact boundary runs => ?steps,
    fun s runs noSteps => ?step⟩
  case call =>
    exact ⟨scrollPoll s, rfl, exec_stask exact boundary runs, exec_scrollCycle exact boundary runs⟩
  case stopped =>
    refine ⟨congrArg toOutcome (scrollCycleWith_stopped stopped), congrArg toOutcome (scrollCycleWith_stopped stopped),
      ?_⟩
    have ran := runItems_scroll 1 s
    rwa [times_one, scrollStep_stopped stopped] at ran
  case steps => exact ⟨scrollPoll s, rfl, runItems_scrollCycle exact boundary runs⟩
  case step =>
    have ran := runItems_scroll 1 s
    rw [times_one] at ran
    refine ⟨fun awake => ?_, fun t0 asleep => ?_⟩
    · rwa [scrollStep_begin runs noSteps awake] at ran
    · rwa [scrollStep_asleep runs noSteps asleep] at ran

end Sys2Proof.Machine
end

section
/-! PROOFS. O56, O59: a sensor cycle that captures nothing, where no cycle may run, and how a shutdown request stops the three
loops (46_poll_loop.md R700 to R706, R730; 47_stimulus.md R756, R759). -/

namespace Sys2Proof.Machine

open Sys2Proof.Safety

variable {s : State}

/-! ### The sensor cycle -/

/-- The sequencer steps between which cycles run, as a list (46_poll_loop.md R706). -/
theorem betweenCycles_iff (st : SeqStep) : betweenCycles st = true ↔ st ∈ [SeqStep.idle, .stream, .fail] := by
  cases st <;> decide

theorem isStreaming_iff (s : State) : isStreaming s = true ↔ s.drvState = .streaming ∧ s.seqPc.step = .stream := by
  rw [isStreaming, Bool.and_eq_true, beq_iff_eq, beq_iff_eq]

section
variable {sleep : State → State}

theorem sensorCycleWith_stopped (stopped : s.runSensor = false) :
    sensorCycleWith sleep s = refuse (.loopStopped .sensor) := if_pos stopped

theorem sensorCycleWith_busy (runs : s.runSensor = true) (inside : s.seqPc.step ∉ [SeqStep.idle, .stream, .fail]) :
    sensorCycleWith sleep s = refuse .sensorBusy := by
  have notBetween : ¬ betweenCycles s.seqPc.step = true := mt (betweenCycles_iff _).mp inside
  rw [sensorCycleWith, if_neg (by rw [runs]; decide), if_neg notBetween]

/-- A cycle whose work is done: its sleep and its boundary. -/
theorem sensorCycleWith_worked {t : State} (runs : s.runSensor = true)
    (between : s.seqPc.step ∈ [SeqStep.idle, .stream, .fail]) (worked : sensorWork s = .ok t) :
    sensorCycleWith sleep s = .ok (sleepBoundary .sensor (yield .sensor (sleep (yield .sensor t)))) := by
  rw [sensorCycleWith, if_neg (by rw [runs]; decide), if_pos ((betweenCycles_iff _).mpr between), worked]

end

/-- What a cycle leaves that only drains: its start, the ring empty and what was live reported (R700, R701). -/
def drained (s : State) : State :=
  { s with loopStart := s.now, rbR := s.rbW, reports := s.reports ++ liveReports s }

theorem drainRing_startCycle (ring : RingOk s) (alone : s.interludes = []) :
    drainRing (startCycle s) = .ok (drained s) := by
  have started : RingOk (startCycle s) := ⟨ring.params, ring.slots, ring.write, ring.read⟩
  exact drainLoop_exact s.params.rbN (startCycle s) started alone (Nat.le_of_lt (liveCount_lt started))

/-- Outside STREAMING the work of a cycle is its drain (R702). -/
theorem sensorWork_idle (ring : RingOk s) (alone : s.interludes = [])
    (idle : s.drvState ≠ .streaming ∨ s.seqPc.step ≠ .stream) : sensorWork s = .ok (drained s) := by
  have noCapture : ¬ isStreaming (drained s) = true := fun streams =>
    have ⟨drv, st⟩ := (isStreaming_iff (drained s)).mp streams
    idle.elim (· drv) (· st)
  have captured : capturePhase (drained s) = .ok (drained s) := if_neg noCapture
  rw [sensorWork, yield_nil (s := startCycle s) alone, drainRing_startCycle ring alone]
  simp only [yield_nil (who := .sensor) (s := drained s) alone, captured]

theorem sleepBoundary_sensor (runs : s.runSensor = true) :
    sleepBoundary .sensor s = { s with runSensor := !s.shutdownReq } := sleepBoundary_running runs

/-- Settles O56: outside STREAMING a cycle is its drain; a stopped loop and a sequencer inside an operation run none. -/
theorem cycleWithoutCapture : Obligations.CycleWithoutCapture := by
  refine ⟨fun s ring exact runs between idle => ?drained, fun s stopped => ?stopped, fun s runs inside => ?busy⟩
  case drained =>
    have cycled := sensorCycleWith_worked (sleep := id) runs between (sensorWork_idle ring exact.1 idle)
    rw [id, yield_nil (s := drained s) exact.1, yield_nil (s := drained s) exact.1,
      sleepBoundary_sensor (s := drained s) runs] at cycled
    exact congrArg toOutcome cycled
  case stopped =>
    exact ⟨congrArg toOutcome (sensorCycleWith_stopped stopped), congrArg toOutcome (sensorCycleWith_stopped stopped)⟩
  case busy =>
    exact ⟨congrArg toOutcome (sensorCycleWith_busy runs inside), congrArg toOutcome (sensorCycleWith_busy runs inside)⟩

/-! ### Shutdown -/

theorem sensorAtBoundary_iff (s : State) : sensorAtBoundary s = true ↔ SensorAtBoundary s := by
  rw [sensorAtBoundary, Bool.and_eq_true, beq_iff_eq, betweenCycles_iff, SensorAtBoundary]

/-- With a shutdown requested a loop stops at its boundary. -/
theorem boundaryIf_requested {there : Bool} {l : Loop} (here : there = true) (requested : s.shutdownReq = true) :
    boundaryIf there l s = stopLoop l s :=
  (if_pos here).trans (if_pos requested)

theorem boundaryIf_elsewhere {there : Bool} {l : Loop} (elsewhere : ¬ there = true) : boundaryIf there l s = s :=
  if_neg elsewhere

/-- `SHUT` while the button and scroll tasks stand at their boundaries, `t` being what it does to the sensor task
(47_stimulus.md R759). -/
theorem exec_shut {t : State} (button : ButtonAtBoundary s) (scroll : ScrollAtBoundary s)
    (sensor : boundaryIf (sensorAtBoundary s) .sensor (requestShutdown s) = t) (requested : t.shutdownReq = true) :
    exec .shut s = .next (stopLoop .scroll (stopLoop .button t)) := by
  have atButton : decide (s.buttonK = []) = true := decide_eq_true button.1
  have atScroll : decide (s.scrollK = []) = true := decide_eq_true scroll.1
  show Host.Outcome.next (boundaryIf (s.scrollK = []) .scroll (boundaryIf (s.buttonK = []) .button
    (boundaryIf (sensorAtBoundary s) .sensor (requestShutdown s)))) = _
  rw [sensor, boundaryIf_requested atButton requested,
    boundaryIf_requested (s := stopLoop .button t) atScroll requested]

theorem initAll_stopped (stopped : s.runSensor = false) : initAll s = refuse (.loopStopped .sensor) := if_pos stopped

theorem modeCommand_stopped (m : OpMode) (stopped : s.runSensor = false) :
    modeCommand m s = refuse (.loopStopped .sensor) := if_pos stopped

theorem sensorStep_stopped (stopped : s.runSensor = false) : sensorStep s = refuse (.loopStopped .sensor) :=
  if_pos stopped

theorem runItems_sensorStep_stopped (stopped : s.runSensor = false) :
    runItems [.sensorStep] s = .refused (.loopStopped .sensor) := by
  rw [runItems_single]
  show finishOutcome (toOutcome (sensorStep (withItem .sensorStep s))) = _
  rw [sensorStep_stopped (s := withItem .sensorStep s) stopped]
  rfl

/-- Settles O59: `SHUT` by where the sensor task stands; the test of each loop; and what refuses once all have stopped. -/
theorem shutdownStopsTheLoops : Obligations.ShutdownStopsTheLoops := by
  refine ⟨fun s button scroll => ⟨fun sensor => ?atBoundary, fun inside => ?inside⟩, fun s => ?tests, fun s ended => ?ended⟩
  case atBoundary =>
    exact exec_shut button scroll (boundaryIf_requested ((sensorAtBoundary_iff s).mpr sensor) rfl) rfl
  case inside =>
    exact exec_shut button scroll (boundaryIf_elsewhere (mt (sensorAtBoundary_iff s).mp inside)) rfl
  case tests =>
    exact ⟨congrArg Host.Outcome.next (sleepBoundary_eq .sensor s),
      congrArg Host.Outcome.next (sleepBoundary_eq .button s), congrArg Host.Outcome.next (sleepBoundary_eq .scroll s)⟩
  case ended =>
    obtain ⟨sensor, button, scroll⟩ := ended
    exact ⟨congrArg toOutcome (buttonCycleWith_stopped button), congrArg toOutcome (scrollCycleWith_stopped scroll),
      congrArg toOutcome (sensorCycleWith_stopped sensor), congrArg toOutcome (initAll_stopped sensor),
      fun m => congrArg toOutcome (modeCommand_stopped m sensor), runItems_sensorStep_stopped sensor⟩

end Sys2Proof.Machine
end

section
/-! PROOFS. O6, O27: what a step of the machine does with each kind of item of its agenda (46_poll_loop.md R706;
47_stimulus.md R765, R766; 60_exceptions.md R840, R852), and the bits of `ButtonMask` (46_poll_loop.md R712). -/

namespace Sys2Proof.Machine

open Sys2Proof.Safety

variable {s t u : State}

/-! ### The button mask -/

/-- A bit put below a word. -/
theorem toNat_append_bit {w : Nat} (v : BitVec w) (b : Bool) : (v ++ BitVec.ofBool b).toNat = 2 * v.toNat + b.toNat := by
  have below : b.toNat < 2 ^ 1 := b.toNat_lt
  rw [BitVec.toNat_append, BitVec.toNat_ofBool, ← Nat.shiftLeft_add_eq_or_of_lt below, Nat.shiftLeft_eq]
  omega

theorem toNat_contactBit (c : Contact) : (contactBit c).toNat = if c = .down then 1 else 0 := by
  cases c <;> rfl

/-- The mask as a number, bit by bit from the top. -/
theorem toNat_buttonMaskOf (ml : PerMain Contact) (ax : PerAux Contact) :
    (buttonMaskOf ml ax).toNat =
      2 * (2 * (2 * (2 * (contactBit ax.s4).toNat + (contactBit ax.s5).toNat) + (contactBit ax.m).toNat) +
        (contactBit ml.right).toNat) + (contactBit ml.left).toNat := by
  rw [buttonMaskOf, toNat_append_bit, toNat_append_bit, toNat_append_bit, toNat_append_bit, toNat_append_bit,
    BitVec.toNat_ofNat, Nat.zero_mod, Nat.mul_zero, Nat.zero_add]

/-- Settles O27: each bit of the mask is worth its power of two. -/
theorem buttonMaskBits : Obligations.ButtonMaskBits := by
  refine fun s => ⟨rfl, ?_⟩
  rw [buttonMask, toNat_buttonMaskOf]
  simp only [toNat_contactBit]
  repeat' split
  all_goals rfl

/-! ### The items of the agenda -/

theorem step_code {c : Code} {rest : List Item} {i : Instr} (goesOn : s.ended = false)
    (next : s.agenda = .code c :: rest) (decodes : decode s.params.burstAddr c = .ok i) :
    step s = if sensorInTheWay i s then .refused .sensorBusy else finishOutcome (exec i s) := by
  rw [step, fetchItem, goesOn, next]
  simp only [Bool.false_eq_true, if_false, List.head?_cons, decodeCode, decodes]

theorem step_board {c : BoardCommand} {rest : List Item} (goesOn : s.ended = false) (next : s.agenda = .board c :: rest) :
    step s = finishOutcome (toOutcome (boardCommand c s)) := by
  rw [step, fetchItem, goesOn, next]
  rfl

theorem step_sensor {rest : List Item} (goesOn : s.ended = false) (next : s.agenda = .sensor :: rest) :
    step s = finishOutcome (toOutcome (sensorTask s)) := by
  rw [step, fetchItem, goesOn, next]
  rfl

theorem step_other {a : Act} {rest : List Item} (goesOn : s.ended = false) (next : s.agenda = .act a :: rest) :
    step s = .next (finishItem (actStep .environment a s)) := by
  rw [step, fetchItem, goesOn, next]
  rfl

/-! ### Instructions by their bits -/

theorem sensorInTheWay_idle (i : Instr) (idle : s.sensorPos = .idle) : sensorInTheWay i s = false := by
  rw [sensorInTheWay, idle, bne_self_eq_false, Bool.and_false]

theorem sensorInTheWay_other {i : Instr} (other : sensorOperation i = false) : sensorInTheWay i s = false := by
  rw [sensorInTheWay, other, Bool.false_and]

theorem sensorInTheWay_inside {i : Instr} (own : sensorOperation i = true) (inside : s.sensorPos ≠ .idle) :
    sensorInTheWay i s = true := by
  rw [sensorInTheWay, own, Bool.true_and, bne_iff_ne]
  exact inside

/-! ### Board commands -/

theorem boardCommand_inside (c : BoardCommand) (inside : s.sensorPos ≠ .idle) : boardCommand c s = refuse .sensorBusy :=
  if_pos inside

theorem boardCommand_stopped (c : BoardCommand) (idle : s.sensorPos = .idle) (stopped : s.runSensor = false) :
    boardCommand c s = refuse (.loopStopped .sensor) := by
  refine (if_neg (not_not_intro idle)).trans ?_
  cases c with
  | init => exact if_pos stopped
  | mode m => exact modeCommand_stopped m stopped
  | startMode m => exact if_pos stopped

theorem boardCommand_init (idle : s.sensorPos = .idle) (runs : s.runSensor = true) :
    toOutcome (boardCommand .init s) = exec .initCommand s :=
  congrArg toOutcome ((if_neg (not_not_intro idle)).trans (if_neg (by rw [runs]; decide)))

theorem boardCommand_mode (m : OpMode) (idle : s.sensorPos = .idle) :
    toOutcome (boardCommand (.mode m) s) = exec (.modeSwitch m) s :=
  congrArg toOutcome (if_neg (not_not_intro idle))

/-! ### The bring-up leaves the loop running, and does not end where it began -/

/-- From `s` to `t` the sensor loop still runs if it ran, and the sequencer has not gone back to `S_IDLE`. -/
def BringUpKept (s t : State) : Prop := t.runSensor = s.runSensor ∧ (s.seqPc.step ≠ .idle → t.seqPc.step ≠ .idle)

theorem BringUpKept.refl (s : State) : BringUpKept s s := ⟨rfl, id⟩

theorem BringUpKept.trans (h : BringUpKept s t) (k : BringUpKept t u) : BringUpKept s u :=
  ⟨k.1.trans h.1, k.2 ∘ h.2⟩

theorem BringUpKept.of_eq (runs : t.runSensor = s.runSensor) (step : t.seqPc.step = s.seqPc.step) : BringUpKept s t :=
  ⟨runs, fun h => step ▸ h⟩

/-- The sequencer moves to another step than `S_IDLE`. -/
theorem BringUpKept.moved (runs : t.runSensor = s.runSensor) (step : t.seqPc.step ≠ .idle) : BringUpKept s t :=
  ⟨runs, fun _ => step⟩

theorem bringUpKept_gotoStep {st : SeqStep} (other : st ≠ .idle) (s : State) : BringUpKept s (gotoStep st s) :=
  .moved rfl other

theorem bringUpKept_gotoFresh {st : SeqStep} (other : st ≠ .idle) (s : State) : BringUpKept s (gotoFresh st s) :=
  .moved rfl other

theorem bringUpKept_fatalFault (s : State) : BringUpKept s (fatalFault s) :=
  .moved rfl (by decide : SeqStep.fail ≠ .idle)

theorem bringUpKept_waitFrom (t0 : Time) (T : Nat) (s : State) : BringUpKept s (waitFrom .sensor t0 T s) :=
  .of_eq (waitFrom_runSensor ..) (congrArg SeqPc.step (waitFrom_seqPc ..))

theorem bringUpKept_busWrite (a : Addr) (v : Byte) (s : State) : BringUpKept s (busWrite a v s).2 :=
  .of_eq (by simp [busWrite, askWrite]) (by simp [busWrite, askWrite])

theorem bringUpKept_busRead {a : Addr} {r : Answer Byte} (h : busRead a s = .ok (r, t)) : BringUpKept s t := by
  simp only [busRead] at h
  split at h
  · cases h
  · simp only [askByte] at h
    split at h
    · cases h
    · rename_i answered
      split at answered <;> cases answered <;> cases h <;> exact .of_eq (by simp) (by simp)

theorem bringUpKept_replayEntry (a : Addr) (v : Byte) (s : State) : BringUpKept s (replayEntry a v s).2 := by
  have wrote := bringUpKept_busWrite a v s
  simp only [replayEntry]
  split
  · exact wrote.trans (.of_eq rfl rfl)
  · exact wrote.trans (bringUpKept_fatalFault _)

theorem bringUpKept_replayWords (ws : List (BitVec 16)) {s : State} {b : Bool} (h : replayWords ws s = .ok (b, t)) :
    BringUpKept s t := by
  induction ws generalizing s with
  | nil => cases h; exact .refl _
  | cons w ws ih =>
    simp only [replayWords] at h
    split at h
    · rename_i a v _
      have sent := bringUpKept_replayEntry a v s
      split at h
      · exact sent.trans (ih h)
      · cases h; exact sent
    · cases h
    · cases h

theorem bringUpKept_replayThen {script : List (BitVec 16)} {after : State → State}
    (hafter : ∀ s, BringUpKept s (after s)) (h : replayThen script after s = .ok t) : BringUpKept s t := by
  simp only [replayThen, replayScript] at h
  split at h
  · cases h
  · rename_i replayed
    cases h; exact (bringUpKept_replayWords _ replayed).trans (hafter _)
  · rename_i replayed
    cases h; exact bringUpKept_replayWords _ replayed

theorem bringUpKept_verifyPoll (n : Nat) {s : State} (h : verifyPoll n s = .ok t) : BringUpKept s t := by
  induction n generalizing s with
  | zero => cases h; exact .moved rfl (by decide : SeqStep.repair ≠ .idle)
  | succ n ih =>
    have waited := bringUpKept_waitFrom (lastEnd s) Config.tVerify s
    simp only [verifyPoll] at h
    split at h
    · cases h
    · rename_i u read
      have counted : BringUpKept u (nextAttempt u) := .of_eq rfl rfl
      cases h
      exact waited.trans <| (bringUpKept_busRead read).trans <| counted.trans (bringUpKept_fatalFault _)
    · rename_i b u read
      have answered : BringUpKept s (nextAttempt u) :=
        waited.trans <| (bringUpKept_busRead read).trans (.of_eq rfl rfl)
      split at h
      · cases h; exact answered.trans (bringUpKept_gotoStep (by decide) _)
      · exact answered.trans (ih h)

theorem bringUpKept_diagReads (addrs : List Addr) {s : State} (h : diagReads addrs s = .ok t) : BringUpKept s t := by
  induction addrs generalizing s with
  | nil => cases h; exact bringUpKept_gotoStep (by decide) s
  | cons a addrs ih =>
    simp only [diagReads] at h
    split at h
    · cases h
    · rename_i read
      cases h; exact (bringUpKept_busRead read).trans (bringUpKept_fatalFault _)
    · rename_i b u read
      have stored : BringUpKept u (nextEntry (storeDiag b u)) := .of_eq rfl rfl
      exact (bringUpKept_busRead read).trans <| stored.trans (ih h)

/-- A timed step: its line or its power set, its wait, its last assignments. -/
theorem bringUpKept_timed {t0 : Time} {T : Nat} {after : State → State} (before : BringUpKept s u)
    (hafter : ∀ s, BringUpKept s (after s)) : BringUpKept s (after (waitFrom .sensor t0 T u)) :=
  before.trans <| (bringUpKept_waitFrom t0 T u).trans (hafter _)

theorem bringUpKept_seqAdvance (h : seqAdvance s = .ok t) : BringUpKept s t := by
  cases step : s.seqPc.step <;> simp only [seqAdvance, step] at h
  case wake => cases h; exact bringUpKept_timed (.of_eq rfl rfl) (bringUpKept_gotoFresh (by decide))
  case ncsPulse =>
    cases h
    exact bringUpKept_timed (after := fun u => gotoFresh .resetPulse (setNcs true u)) (.of_eq rfl rfl)
      fun _ => .moved rfl (by decide : SeqStep.resetPulse ≠ .idle)
  case resetPulse =>
    cases h
    exact bringUpKept_timed (after := fun u => gotoFresh .settle (setNreset true u)) (.of_eq rfl rfl)
      fun _ => .moved rfl (by decide : SeqStep.settle ≠ .idle)
  case settle =>
    cases h
    exact bringUpKept_timed (.refl s) fun _ => .moved rfl (by decide : SeqStep.first ≠ .idle)
  case first => exact bringUpKept_replayThen (bringUpKept_gotoFresh (by decide)) h
  case repair => exact bringUpKept_replayThen (bringUpKept_gotoStep (by decide)) h
  case close => exact bringUpKept_replayThen (after := closed) (fun _ => .moved rfl (by decide : SeqStep.diag ≠ .idle)) h
  case verify => exact bringUpKept_verifyPoll _ h
  case diag => exact bringUpKept_diagReads _ h
  case mvalid =>
    cases h
    exact bringUpKept_timed (.refl s) fun _ => .moved rfl (by decide : SeqStep.stream ≠ .idle)
  case idle | stream | mode | fail => cases h; exact .refl s

/-! ### The sensor task goes on -/

theorem sensorTask_stopped (stopped : s.runSensor = false) : sensorTask s = refuse (.loopStopped .sensor) :=
  if_pos stopped

theorem sensorTask_inside (runs : s.runSensor = true) (inside : s.sensorPos ≠ .idle) : sensorTask s = refuse .sensorBusy :=
  (if_neg (by rw [runs]; decide)).trans (if_pos inside)

/-- At its boundary the task runs a cycle, which refuses by itself once the loop has stopped. -/
theorem sensorTask_cycle (idle : s.sensorPos = .idle) (between : s.seqPc.step ∈ [SeqStep.idle, .stream, .fail]) :
    sensorTask s = sensorCycleWith sensorSleep s := by
  cases runs : s.runSensor with
  | false => rw [sensorTask_stopped runs, sensorCycleWith_stopped runs]
  | true =>
    rw [sensorTask, if_neg (by rw [runs]; decide), if_neg (not_not_intro idle),
      if_pos ((betweenCycles_iff _).mpr between)]

/-- The boundary's test after a bring-up step: made where the bring-up ends, in `S_STREAM` or `S_FAIL` (R730). -/
def afterBringUpStep (t : State) : State :=
  { t with runSensor := !(t.shutdownReq && (t.seqPc.step == .stream || t.seqPc.step == .fail)) }

theorem betweenCycles_eq {st : SeqStep} (other : st ≠ .idle) : betweenCycles st = (st == .stream || st == .fail) := by
  cases st with
  | idle => exact absurd rfl other
  | stream | fail | wake | ncsPulse | resetPulse | settle | first | verify | repair | close | diag | mvalid | mode => rfl

theorem afterBringUpStep_eq (runs : t.runSensor = true) (other : t.seqPc.step ≠ .idle) :
    (if betweenCycles t.seqPc.step = true then sleepBoundary .sensor t else t) = afterBringUpStep t := by
  rw [afterBringUpStep, ← betweenCycles_eq other]
  split
  case isTrue ends => rw [sleepBoundary_sensor runs, ends, Bool.and_true]
  case isFalse goesOn => rw [Bool.eq_false_iff.mpr goesOn, Bool.and_false, Bool.not_false, ← runs]

/-- The task inside a bring-up takes the sequencer's next step. -/
theorem sensorTask_bringUp (runs : s.runSensor = true) (idle : s.sensorPos = .idle)
    (inside : s.seqPc.step ∉ [SeqStep.idle, .stream, .fail]) (advanced : seqAdvance s = .ok t) :
    sensorTask s = .ok (afterBringUpStep t) := by
  have kept := bringUpKept_seqAdvance advanced
  have begun : s.seqPc.step ≠ .idle := fun atIdle => inside (by rw [atIdle]; decide)
  rw [sensorTask, if_neg (by rw [runs]; decide), if_neg (not_not_intro idle),
    if_neg (mt (betweenCycles_iff _).mp inside), advanced]
  exact congrArg Except.ok (afterBringUpStep_eq (kept.1.trans runs) (kept.2 begun))

theorem sensorTask_bringUp_stop {e : Stop} (runs : s.runSensor = true) (idle : s.sensorPos = .idle)
    (inside : s.seqPc.step ∉ [SeqStep.idle, .stream, .fail]) (stops : seqAdvance s = .error e) :
    sensorTask s = .error e := by
  rw [sensorTask, if_neg (by rw [runs]; decide), if_neg (not_not_intro idle),
    if_neg (mt (betweenCycles_iff _).mp inside), stops]

/-- The instruction of each step of the bring-up (41_sensor_driver.md R450). -/
def bringUpInstrs : List (SeqStep × Instr) :=
  [(.wake, .sWake), (.ncsPulse, .sNcsPulse), (.resetPulse, .sResetPulse), (.settle, .sSettle), (.first, .replay .first),
    (.verify, .sVerify), (.repair, .sRepair), (.close, .sClose), (.diag, .sDiag), (.mvalid, .sMvalid)]

theorem bringUpInstrs_inside {st : SeqStep} {i : Instr} (own : (st, i) ∈ bringUpInstrs) :
    st ∉ [SeqStep.idle, .stream, .fail] :=
  (by decide : ∀ x ∈ bringUpInstrs, x.1 ∉ [SeqStep.idle, .stream, .fail]) _ own

theorem atStep_here {st : SeqStep} {run : State → Except Stop State} (here : s.seqPc.step = st) :
    atStep st run s = run s := if_pos here

/-- Issued at its place it is the sequencer's step. -/
theorem exec_bringUpInstr {i : Instr} (own : (s.seqPc.step, i) ∈ bringUpInstrs) :
    exec i s = toOutcome (seqAdvance s) := by
  simp only [bringUpInstrs, List.mem_cons, Prod.mk.injEq, List.not_mem_nil, or_false] at own
  rcases own with ⟨here, rfl⟩ | ⟨here, rfl⟩ | ⟨here, rfl⟩ | ⟨here, rfl⟩ | ⟨here, rfl⟩ | ⟨here, rfl⟩ | ⟨here, rfl⟩
    | ⟨here, rfl⟩ | ⟨here, rfl⟩ | ⟨here, rfl⟩
  all_goals
    refine congrArg toOutcome ((atStep_here here).trans ?_)
    simp only [seqAdvance, here]

theorem toOutcome_eq_refused {r : Except Stop State} {x : Refusal} : toOutcome r = .refused x ↔ r = refuse x := by
  rcases r with (f | y) | t <;> simp [toOutcome, refuse]

/-! ### Steps of the other agents -/

/-- A handler that can be dispatched is dispatched by the environment's step too (60_exceptions.md R820). -/
theorem actStep_isr_dispatch {p : Pin} (ran : dispatch p s = .ok t) : actStep .environment (.isr p) s = t := by
  simp only [dispatch] at ran
  split at ran
  case isTrue latched => cases ran; exact if_pos latched
  case isFalse => cases ran

theorem actStep_isr_idle {p : Pin} (idle : pending s p = false) : actStep .environment (.isr p) s = s :=
  if_neg (by rw [idle]; decide)

/-! ### O6 -/

/-- A step that finishes an item answers as the item's meaning does. -/
theorem finishOutcome_answers {o answer : Host.Outcome State Fault Refusal} (stepped : answer = finishOutcome o) :
    (∀ t, o = .next t → answer = .next (finishItem t)) ∧ (∀ f, o = .fault f → answer = .fault f) ∧
      ∀ r, o = .refused r → answer = .refused r := by
  subst stepped
  refine ⟨?_, ?_, ?_⟩ <;> rintro x rfl <;> rfl

/-- Settles O6: by the kind of the next item. -/
theorem stepRunsDecodedInstruction : Obligations.StepRunsDecodedInstruction := by
  refine ⟨fun s c rest i goesOn next decodes => ?code, fun s c rest i goesOn next => ?board,
    fun s rest goesOn next => ?sensor, fun s a rest goesOn next => ?act⟩
  case code =>
    have stepped := step_code goesOn next decodes
    refine ⟨fun free => ?_, fun inside own => ?_⟩
    · have clear : sensorInTheWay i s = false := by
        rcases free with idle | rfl | ⟨p, l, rfl⟩ | ⟨p, rfl⟩ | ⟨n, rfl⟩ | rfl | rfl | rfl | ⟨w, rfl⟩
        · exact sensorInTheWay_idle i idle
        all_goals exact sensorInTheWay_other rfl
      rw [clear, if_neg Bool.false_ne_true] at stepped
      exact finishOutcome_answers stepped
    · have operation : sensorOperation i = true := by
        rcases own with listed | ⟨m, rfl⟩ | ⟨dx, dy, rfl⟩ | ⟨a, v, rfl⟩ | ⟨a, rfl⟩ | ⟨a, rfl⟩ | ⟨a, v, rfl⟩
        · exact (by decide : ∀ j ∈ [Instr.scycle, .initStim, .draint], sensorOperation j = true) i listed
        all_goals rfl
      rw [stepped, if_pos (sensorInTheWay_inside operation inside)]
  case board =>
    have stepped := step_board goesOn next
    obtain ⟨-, -, refused⟩ := finishOutcome_answers stepped
    refine ⟨fun inside => refused _ (congrArg toOutcome (boardCommand_inside c inside)),
      fun idle stopped => refused _ (congrArg toOutcome (boardCommand_stopped c idle stopped)),
      fun idle runs command => ?_⟩
    have same : toOutcome (boardCommand c s) = exec i s := by
      rcases command with ⟨rfl, rfl⟩ | ⟨m, rfl, rfl⟩
      · exact boardCommand_init idle runs
      · exact boardCommand_mode m idle
    obtain ⟨ran, -, refused⟩ := finishOutcome_answers (same ▸ stepped)
    exact ⟨ran, refused⟩
  case sensor =>
    have stepped := step_sensor goesOn next
    obtain ⟨ran, -, refused⟩ := finishOutcome_answers stepped
    refine ⟨fun stopped => refused _ (congrArg toOutcome (sensorTask_stopped stopped)),
      fun runs inside => refused _ (congrArg toOutcome (sensorTask_inside runs inside)), fun idle between => ?_,
      fun runs idle i own => ?_⟩
    · rw [sensorTask_cycle idle between] at ran refused
      exact ⟨ran, refused⟩
    · have inside := bringUpInstrs_inside own
      rw [exec_bringUpInstr own]
      refine ⟨fun t next => ran _ (toOutcome_eq_next.mpr ?_), fun r stops => refused r (toOutcome_eq_refused.mpr ?_)⟩
      · exact sensorTask_bringUp runs idle inside (toOutcome_eq_next.mp next)
      · exact sensorTask_bringUp_stop runs idle inside (toOutcome_eq_refused.mp stops)
  case act =>
    have stepped := step_other goesOn next
    have becomes {t : State} (moved : actStep .environment a s = t) : step s = .next (finishItem t) := moved ▸ stepped
    refine ⟨fun p l t which ran => becomes ?_, fun p t which ran => becomes ?_, fun p which idle => becomes ?_,
      fun n positive which => becomes ?_, fun which => becomes ?_⟩ <;> subst which
    · exact Host.Outcome.next.inj ran
    · exact actStep_isr_dispatch (toOutcome_eq_next.mp ran)
    · exact actStep_isr_idle idle
    · rfl
    · rfl

end Sys2Proof.Machine
end

section
/-! PROOFS. O10: the values of the reset state (70_reset_and_hazards.md R900). -/

namespace Sys2Proof.Machine

variable {α : Type}

/-! ### The same value for every pin or button -/

theorem perPinGet_uniform (x : α) (p : Pin) : perPinGet ⟨x, x, x, x, x, x, x, x, x⟩ p = x := by
  cases p <;> rfl

theorem perMainGet_uniform (x : α) (b : MainButton) : perMainGet ⟨x, x⟩ b = x := by
  cases b <;> rfl

theorem perAuxGet_uniform (x : α) (a : AuxButton) : perAuxGet ⟨x, x, x⟩ a = x := by
  cases a <;> rfl

/-! ### O10 -/

/-- Settles O10: the elements with one entry for each pin or button hold the same value in all of them; every other
element is read off the reset state. -/
theorem resetValues : Obligations.ResetValues := by
  unfold Obligations.ResetValues
  intro s
  have nonePending (p : Pin) : pending s p = false := perPinGet_uniform false p
  have mainUp (b : MainButton) : perMainGet s.mlState b = .up := perMainGet_uniform Contact.up b
  have mainClear (b : MainButton) : perMainGet s.mlFlag b = .clear := perMainGet_uniform Handshake.clear b
  have auxUp (a : AuxButton) : perAuxGet s.axState a = .up := perAuxGet_uniform Contact.up a
  have auxQuiet (a : AuxButton) : perAuxGet s.axEvent a = false := perAuxGet_uniform false a
  have auxIdle (a : AuxButton) : perAuxGet s.axConfirm a = 0 := perAuxGet_uniform 0 a
  exact ⟨nonePending, rfl, rfl, rfl, rfl, rfl, rfl, rfl, rfl, rfl, rfl, rfl, rfl, mainUp, mainClear, auxUp, auxQuiet,
    auxIdle, rfl, rfl, rfl, rfl, rfl, rfl, rfl, rfl, rfl, rfl⟩

end Sys2Proof.Machine
end

section
/-! PROOFS. O21, O22: a pin change and the interrupt it may latch; handler entry with and without a pending interrupt
(47_stimulus.md R751, R752; 60_exceptions.md R811, R820, R821, R823). -/

namespace Sys2Proof.Machine

open Sys2Proof.Safety

variable {p : Pin} {l old new : Level} {s : State}

/-! ### Selected edges -/

/-- Both edges of a button pin are selected (R811). -/
theorem edgeSelected_button (e : EdgePolarity) (button : pinNumber p ≤ 6) :
    edgeSelected e p old new = true ↔ old ≠ new := by
  cases p with
  | lNo | lNc | rNo | rNc | m | s4 | s5 => exact bne_iff_ne
  | scrA | scrB => exact absurd button (by decide)

/-- Of a scroll pin only the edges of the parameter's polarity are selected (R811). -/
theorem edgeSelected_scroll (e : EdgePolarity) (scroll : 7 ≤ pinNumber p) :
    edgeSelected e p old new = true ↔
      (e = .rising ∧ old = false ∧ new = true) ∨ (e = .falling ∧ old = true ∧ new = false) := by
  cases p with
  | lNo | lNc | rNo | rNc | m | s4 | s5 => exact absurd scroll (by decide)
  | scrA | scrB => cases e <;> simp [edgeSelected]

theorem edgeSelected_iff (e : EdgePolarity) (p : Pin) (old new : Level) :
    edgeSelected e p old new = true ↔
      (pinNumber p ≤ 6 ∧ old ≠ new) ∨
      (7 ≤ pinNumber p ∧ ((e = .rising ∧ old = false ∧ new = true) ∨ (e = .falling ∧ old = true ∧ new = false))) := by
  rcases Nat.lt_or_ge 6 (pinNumber p) with scroll | button
  · have notButton : ¬ pinNumber p ≤ 6 := Nat.not_le_of_lt scroll
    simp only [edgeSelected_scroll e scroll, Nat.succ_le_of_lt scroll, notButton, true_and, false_and, false_or]
  · have notScroll : ¬ 7 ≤ pinNumber p := Nat.not_lt_of_le button
    simp only [edgeSelected_button e button, button, notScroll, true_and, false_and, or_false]

/-! ### A pin change -/

theorem drivePin_selected
    (edge : pinLevel s p ≠ l ∧ edgeSelected s.params.scrollEdge p (pinLevel s p) l = true) :
    drivePin p l s = setPending p true (setPin p l s) := if_pos edge

theorem drivePin_quiet
    (noEdge : ¬ (pinLevel s p ≠ l ∧ edgeSelected s.params.scrollEdge p (pinLevel s p) l = true)) :
    drivePin p l s = setPin p l s := if_neg noEdge

/-- Settles O21: the change is a selected edge, or it only moves the pin. -/
theorem pinDrivesAndLatches : Obligations.PinDrivesAndLatches := by
  refine ⟨fun p l s => congrArg Host.Outcome.next ?_, edgeSelected_iff⟩
  split
  case isTrue edge => exact drivePin_selected edge
  case isFalse noEdge => exact drivePin_quiet noEdge

/-! ### Handler entry -/

/-- The instruction of a pin's handler runs that handler (R821). -/
theorem exec_handlerInstr (p : Pin) (s : State) : exec (handlerInstr p) s = .next (handler p s) := by
  cases p <;> rfl

theorem dispatch_pending (latched : pending s p = true) : dispatch p s = .ok (handlerEntry p s) := if_pos latched

theorem dispatch_idle (idle : pending s p = false) : dispatch p s = refuse (.irqNotPending p) :=
  if_neg (Bool.eq_false_iff.mp idle)

/-- Settles O22: `ISR` and `HandlerEntry` are both `dispatch`, which enters the handler or refuses. -/
theorem handlerEntryRunsTheHandler : Obligations.HandlerEntryRunsTheHandler := by
  refine ⟨fun p s latched => ?entered, fun p s idle => ?refused, fun s => rfl⟩
  case entered =>
    have runs := congrArg toOutcome (dispatch_pending latched)
    exact ⟨handlerEntry p s, exec_handlerInstr p (setPending p false s), runs, runs⟩
  case refused =>
    have refuses := congrArg toOutcome (dispatch_idle idle)
    exact ⟨refuses, refuses⟩

end Sys2Proof.Machine
end
